-- ==== Sys2Proof/Word.lean ====
section
/-! DEFINITION. The words the spec moves: bytes and 32-bit host words (20_memory R64, 30_encoding R90). -/

namespace Sys2Proof

/-- One byte: a data byte, a status, a buffer element (20_memory R64). -/
abbrev Byte := BitVec 8

/-- One host word: the command word CMD and the status word STAT (30_encoding R90, R104). -/
abbrev Word := BitVec 32

end Sys2Proof
end

