-- ==== Sys2Proof/Config.lean ====
section
/-! DEFINITION. The configuration record `Cfg` (00_scope R6), the vocabulary shared with the bus controller
(00_scope R10, R12; 20_memory R72), and the model's free values: constants without a body. -/

namespace Sys2Proof

/-- The five trigger actions (00_scope R10, 30_encoding R102). -/
inductive Action where
  /-- T_START, "generate start". -/
  | start
  /-- T_STOP, "generate stop". -/
  | stop
  /-- T_TRANSMIT, "transmit loaded byte". -/
  | transmit
  /-- T_RX_ACK, "receive next byte with ack". -/
  | rxAck
  /-- T_RX_NACK, "receive next byte with nack". -/
  | rxNack
  deriving DecidableEq, Repr, Inhabited

/-- One event of the observable trace (00_scope R12). -/
inductive Event where
  /-- WrDiv(v): the divider is written. -/
  | wrDiv (v : Nat)
  /-- SetEn: the enable flag is set. -/
  | setEn
  /-- WrData(b): the data register is written. -/
  | wrData (b : Byte)
  /-- Trig(a): the control trigger is written. -/
  | trig (a : Action)
  /-- PollDone(r): the completion flag is read as `r`. -/
  | pollDone (r : Bool)
  /-- PollStop(r): the stop-in-progress flag is read as `r`. -/
  | pollStop (r : Bool)
  /-- RdStatus(s): the status is read. -/
  | rdStatus (s : Byte)
  /-- RdData(d): the data register is read. -/
  | rdData (d : Byte)
  /-- BufRd(i,b): the core reads byte `i` of BUF. -/
  | bufRd (i : Byte) (b : Byte)
  /-- BufWr(i,b): the core writes byte `i` of BUF. -/
  | bufWr (i : Byte) (b : Byte)
  deriving DecidableEq, Repr, Inhabited

/-- The responder's answer to one trigger, `(k, s, d)` of 20_memory R72. -/
structure Response where
  /-- `k`: polls that answer not ready before the first ready one; `none` is `never`. -/
  notReady : Option Nat
  /-- `s`: what a read of the status returns. -/
  status : Byte
  /-- `d`: what a read of the data register returns. -/
  data : Byte
  deriving DecidableEq, Repr, Inhabited

/-- The bus controller's state (10_state R36 to R44). External: the core reaches it through the eight
accesses of 00_scope R10 only. -/
structure BusController where
  /-- Clock-rate divider (R37); its width is whatever holds DIV_MAX. -/
  divider : Nat
  /-- Enable flag (R38). -/
  enabled : Bool
  /-- The pattern last written to the control trigger (R39). -/
  control : Nat
  /-- The action last requested through the trigger (R39). -/
  action : Option Action
  /-- Completion flag (R40). -/
  completion : Bool
  /-- Stop-in-progress flag (R41). -/
  stopBusy : Bool
  /-- Status value, raw (R42). -/
  status : Byte
  /-- Data register (R43). -/
  data : Byte
  /-- What is left of the response to the last trigger: hidden state of the environment (R44). -/
  pending : Response
  deriving DecidableEq, Repr, Inhabited

/-- The configuration record (00_scope R6). The fields from `patStart` on are the OPEN parameters that no rule
computes with (20_memory R62, R66; 30_encoding R102); a trigger only hands its pattern to the controller. -/
structure Cfg where
  /-- F_REF, `referenceClock`, hertz. -/
  fRef : Nat
  /-- BIT_RATE, `targetBitRate`, hertz. -/
  bitRate : Nat
  /-- DIV_MAX. -/
  divMax : Nat
  /-- TIMEOUT_BUDGET; 16 bits, the width of TMO, so that R7's bound holds by construction. -/
  timeoutBudget : BitVec 16
  /-- ST_START. -/
  stStart : Byte
  /-- ST_RSTART. -/
  stRstart : Byte
  /-- ST_TX_ADDR_ACK. -/
  stTxAddrAck : Byte
  /-- ST_TX_ADDR_NACK. -/
  stTxAddrNack : Byte
  /-- ST_TX_DATA_ACK. -/
  stTxDataAck : Byte
  /-- ST_TX_DATA_NACK. -/
  stTxDataNack : Byte
  /-- ST_ARB_LOST. -/
  stArbLost : Byte
  /-- ST_RX_ADDR_ACK. -/
  stRxAddrAck : Byte
  /-- ST_RX_ADDR_NACK. -/
  stRxAddrNack : Byte
  /-- ST_RX_DATA_ACK. -/
  stRxDataAck : Byte
  /-- ST_RX_DATA_NACK. -/
  stRxDataNack : Byte
  /-- ST_BUS_FAULT. -/
  stBusFault : Byte
  /-- PAT_START. -/
  patStart : Nat
  /-- PAT_STOP. -/
  patStop : Nat
  /-- PAT_TRANSMIT. -/
  patTransmit : Nat
  /-- PAT_RX_ACK. -/
  patRxAck : Nat
  /-- PAT_RX_NACK. -/
  patRxNack : Nat
  /-- BC_DIVIDER. -/
  bcDivider : Nat
  /-- BC_CONTROL. -/
  bcControl : Nat
  /-- BC_STATUS. -/
  bcStatus : Nat
  /-- BC_DATA. -/
  bcData : Nat
  /-- HOST_BASE. -/
  hostBase : Nat
  deriving DecidableEq, Repr, Inhabited

/-- The twelve status codes, in the order of 00_scope R6. -/
def Cfg.codes (c : Cfg) : List Byte :=
  [c.stStart, c.stRstart, c.stTxAddrAck, c.stTxAddrNack, c.stTxDataAck, c.stTxDataNack,
   c.stArbLost, c.stRxAddrAck, c.stRxAddrNack, c.stRxDataAck, c.stRxDataNack, c.stBusFault]

/-- The defaults for vectors of 00_scope R6; patterns and addresses from 93 G3, G4 (general knowledge of the
ATmega328P; HOST_BASE, of which nothing is known, is 0). No meaning uses them: they are for tests, and the
well-formed value that shows `Config.cfg` has one. -/
def Cfg.vectors : Cfg where
  fRef := 16000000
  bitRate := 100000
  divMax := 255
  timeoutBudget := 1000#16
  stStart := 0x08#8
  stRstart := 0x10#8
  stTxAddrAck := 0x18#8
  stTxAddrNack := 0x20#8
  stTxDataAck := 0x28#8
  stTxDataNack := 0x30#8
  stArbLost := 0x38#8
  stRxAddrAck := 0x40#8
  stRxAddrNack := 0x48#8
  stRxDataAck := 0x50#8
  stRxDataNack := 0x58#8
  stBusFault := 0x00#8
  patStart := 0xA4
  patStop := 0x94
  patTransmit := 0x84
  patRxAck := 0xC4
  patRxNack := 0x84
  bcDivider := 0xB8
  bcControl := 0xBC
  bcStatus := 0xB9
  bcData := 0xBB
  hostBase := 0

/-- FREE VALUE (log 1): the OPEN parameters of 00_scope R6, before well-formedness is imposed. -/
opaque Config.rawCfg : Cfg

/-- FREE VALUE (log 2): the responder of 20_memory R72. It answers a trigger from the whole trace so far, the
trigger's own event included, once the script of State is used up. -/
opaque Config.responder : List Event → Response

/-- FREE VALUE (log 5): what byte `i` of BUF holds after the `n`-th reset while nothing has written it
(10_state R23, R50; 93 U9). -/
opaque Config.bufDraw : (n : Nat) → (i : Nat) → Byte

/-- FREE VALUE (log 6): the bus controller when the core comes out of reset (70_reset R241: arbitrary). -/
opaque Config.busAtReset : BusController

end Sys2Proof
end

