-- ==== Sys2Proof/Syntax.lean ====
section
/-! DEFINITION. The twelve commands (30_encoding R93) and the field view of the command word (R91). -/

namespace Sys2Proof

/-- The direction bit (00_scope R11): W = 0, R = 1. -/
inductive Dir where
  /-- W, the master writes. -/
  | write
  /-- R, the master reads. -/
  | read
  deriving DecidableEq, Repr, Inhabited

/-- A command word cut into the fields of 30_encoding R91, most significant first. -/
structure Cmd32 where
  /-- OP, bits 31:28. -/
  op : BitVec 4
  /-- Z1, bits 27:25, must be zero. -/
  z1 : BitVec 3
  /-- DIR, bit 24. -/
  dir : BitVec 1
  /-- Z2, bit 23, must be zero. -/
  z2 : BitVec 1
  /-- ADDR7, bits 22:16. -/
  addr7 : BitVec 7
  /-- BYTE, bits 15:8. -/
  byte : Byte
  /-- LEN, bits 7:0. -/
  len : Byte
  deriving DecidableEq, Repr, Inhabited

/-- The commands, in the order of 30_encoding R93, with the fields each uses. An address above 127 cannot be
written (92 D5). -/
inductive Instr where
  /-- INIT (43 R187). -/
  | init
  /-- START (42 R153). -/
  | start
  /-- RSTART (42 R154). -/
  | rstart
  /-- ADDR (42 R155). -/
  | addr (dir : Dir) (addr7 : BitVec 7)
  /-- TXDATA (42 R156). -/
  | txdata (byte : Byte)
  /-- RXACK (42 R157). -/
  | rxack
  /-- RXNACK (42 R158). -/
  | rxnack
  /-- STOP (42 R159). -/
  | stop
  /-- BWRITE (43 R183). -/
  | bwrite (addr7 : BitVec 7) (len : Byte)
  /-- BREAD (43 R184). -/
  | bread (addr7 : BitVec 7) (len : Byte)
  /-- WREG (43 R185). -/
  | wreg (addr7 : BitVec 7) (byte : Byte) (len : Byte)
  /-- RREG (43 R186). -/
  | rreg (addr7 : BitVec 7) (byte : Byte) (len : Byte)
  deriving DecidableEq, Repr, Inhabited

end Sys2Proof
end

