-- ==== Sys2Proof/WellFormed.lean ====
section
/-! DEFINITION. Well-formedness: of the configuration (00_scope R7) and of a command word's fields
(30_encoding R95, R96). -/

namespace Sys2Proof

/-- 00_scope R7: the twelve codes are pairwise distinct, each has its low three bits zero, and F_REF >= 1.
DIV_MAX >= 0 and the bound on TIMEOUT_BUDGET hold by the types. -/
abbrev Cfg.WellFormed (c : Cfg) : Prop :=
  c.codes.Nodup ∧ (∀ x ∈ c.codes, x &&& 0x07#8 = 0#8) ∧ 1 ≤ c.fRef

/-- The machine's configuration: any well-formed one (log 1). It is the free value `Config.rawCfg` where that
is well-formed, so every well-formed configuration is a possible value of it and no other one is. -/
def Config.cfg : Cfg :=
  if Config.rawCfg.WellFormed then Config.rawCfg else Cfg.vectors

/-- Which of DIR, ADDR7, BYTE, LEN the command of an opcode uses ("fields used", 30_encoding R93). -/
structure Used where
  /-- DIR is used. -/
  dir : Bool
  /-- ADDR7 is used. -/
  addr7 : Bool
  /-- BYTE is used. -/
  byte : Bool
  /-- LEN is used. -/
  len : Bool
  deriving DecidableEq, Repr, Inhabited

/-- The "fields used" column of 30_encoding R93; `none` for the illegal opcodes 0x0, 0xD, 0xE, 0xF. -/
def Used.ofOp (op : BitVec 4) : Option Used :=
  match op.toNat with
  | 0x1 | 0x2 | 0x3 | 0x6 | 0x7 | 0x8 => some ⟨false, false, false, false⟩
  | 0x4 => some ⟨true, true, false, false⟩
  | 0x5 => some ⟨false, false, true, false⟩
  | 0x9 | 0xA => some ⟨false, true, false, true⟩
  | 0xB | 0xC => some ⟨false, true, true, true⟩
  | _ => none

/-- A field that is not used is zero (30_encoding R95). -/
abbrev zeroUnless {n : Nat} (used : Bool) (v : BitVec n) : Prop := used = true ∨ v = 0

/-- The must-be-zero rules of 30_encoding R95 for a command that uses the fields `u`. -/
abbrev Cmd32.MustBeZero (f : Cmd32) (u : Used) : Prop :=
  f.z1 = 0 ∧ f.z2 = 0 ∧ zeroUnless u.dir f.dir ∧ zeroUnless u.addr7 f.addr7 ∧
    zeroUnless u.byte f.byte ∧ zeroUnless u.len f.len

/-- A word that is one of the twelve commands: a legal opcode and every must-be-zero bit clear
(30_encoding R95, R96). -/
def Cmd32.wellFormed (f : Cmd32) : Bool :=
  (Used.ofOp f.op).any fun u => decide (f.MustBeZero u)

end Sys2Proof
end

