-- ==== Sys2Proof/Machine/State.lean ====
section
/-! DEFINITION. The state of the system (10_state R20), as plain data, and its value after reset (R50). -/

namespace Sys2Proof.Machine

/-- Outcome (00_scope R11, 10_state R29). -/
inductive Outcome where
  /-- Ok, code 0. -/
  | ok
  /-- NotAcknowledged, code 1. -/
  | notAcknowledged
  /-- ProtocolError, code 2. -/
  | protocolError
  /-- TimedOut, code 3. -/
  | timedOut
  deriving DecidableEq, Repr, Inhabited

/-- Cause (00_scope R11, 10_state R30). -/
inductive Cause where
  /-- None, code 0: the step succeeded. -/
  | none
  /-- Nack, code 1. -/
  | nack
  /-- ArbLost, code 2. -/
  | arbLost
  /-- BusFault, code 3. -/
  | busFault
  /-- Unrecognized, code 4. -/
  | unrecognized
  /-- Timeout, code 5: the guard's verdict. -/
  | timeout
  deriving DecidableEq, Repr, Inhabited

/-- Phase (00_scope R11, 10_state R26). -/
inductive Phase where
  /-- Idle, code 0. -/
  | idle
  /-- StartIssued, code 1. -/
  | startIssued
  /-- AddressAcked, code 2. -/
  | addressAcked
  /-- DataPhase, code 3. -/
  | dataPhase
  /-- StopIssued, code 4. -/
  | stopIssued
  deriving DecidableEq, Repr, Inhabited

/-- The sequencer positions (10_state R27). -/
inductive Seq where
  /-- S_IDLE: no command. -/
  | idle
  /-- S_INIT. -/
  | init
  /-- S_PRIM: the single primitive of a primitive command. -/
  | prim
  /-- S_START. -/
  | start
  /-- S_ADDR_W. -/
  | addrW
  /-- S_REG. -/
  | reg
  /-- S_RSTART. -/
  | rstart
  /-- S_ADDR_R. -/
  | addrR
  /-- S_DATA, with IDX selecting the byte. -/
  | data
  /-- S_STOP. -/
  | stop
  deriving DecidableEq, Repr, Inhabited

/-- A move of the host agent that is not the command word itself being accepted (00_scope R14 (3)). -/
inductive HostMove where
  /-- Present `w` on CMD with `cmd_valid` (30_encoding R92). -/
  | present (w : Word)
  /-- Write byte `i` of BUF (20_memory R75). -/
  | writeBuf (i : Byte) (b : Byte)
  /-- Assert the reset input (70_reset R240). -/
  | reset
  deriving DecidableEq, Repr, Inhabited

/-- Memory: the bytes something has written, as (address, byte) pairs. An unlisted address holds no value
(10_state R23: "a byte nothing has written as holding no value"). -/
abbrev Memory := List Host.Cell

/-- The state of the system (10_state R20; INVENTORY.md, State, has one line for each field). -/
structure State where
  /-- The configuration (00_scope R6); no step writes it (70_reset R250 (c)). -/
  cfg : Cfg
  /-- CMD: the word on the command input (10_state R45). -/
  cmd : Word
  /-- `cmd_valid` (30_encoding R92). -/
  cmdValid : Bool
  /-- OP latch (10_state R21). -/
  op : BitVec 4
  /-- DIR latch (R21). -/
  dir : Dir
  /-- ADDR7 latch (R21). -/
  addr7 : BitVec 7
  /-- BYTE latch (R21). -/
  byte : Byte
  /-- LEN latch (R21). -/
  len : Byte
  /-- BUF, the transfer buffer (R23). -/
  buf : Memory
  /-- BUSY (R24). -/
  busy : Bool
  /-- DONE (R25). -/
  done : Bool
  /-- PHASE (R26). -/
  phase : Phase
  /-- SEQ (R27). -/
  seq : Seq
  /-- IDX (R28). -/
  idx : Byte
  /-- TMO, the watchdog counter (R35). -/
  tmo : BitVec 16
  /-- OUTCOME (R29). -/
  outcome : Outcome
  /-- CAUSE (R30). -/
  cause : Cause
  /-- STOP_UNCONF (R31). -/
  stopUnconf : Bool
  /-- ILLEGAL (R32). -/
  illegal : Bool
  /-- LAST_STATUS (R33). -/
  lastStatus : Byte
  /-- RXDATA (R34). -/
  rxdata : Byte
  /-- The bus controller (R36 to R44). -/
  bus : BusController
  /-- The model's own (log 3): the host's moves still to come. -/
  host : List HostMove
  /-- The model's own (log 2): the responses still to come, one per trigger. -/
  script : List Response
  /-- The model's own (log 7): the events so far, oldest first (00_scope R12). -/
  trace : List Event
  /-- The model's own (log 7): STAT as it stood at each event, oldest first (60_exceptions R221). -/
  statLog : List Word
  /-- The model's own (log 5): how often the reset input was asserted. -/
  resets : Nat
  deriving DecidableEq, Repr

/-- Why the machine stops. The spec names no fault: "there is no crash/abort path" (60_exceptions R210), every
command reaches its completion (43_orchestrator R180). So there is no constructor: nothing raises a fault, and
that is neither a safe nor an unsafe difference. -/
inductive Fault
  deriving DecidableEq, Repr

/-- Why a step is refused. -/
inductive Refusal where
  /-- Raised by an arm of `exec` for an instruction that has no meaning yet; no arm does. Safe: it claims
  nothing of the instruction. -/
  | notModelled (mnemonic : String)
  deriving DecidableEq, Repr

/-- The state after reset (10_state R50, 70_reset R240). The values R50 leaves unspecified are 0 (log 4), BUF
lists nothing (log 5), the bus controller is arbitrary (R241, log 6), and nothing is presented. -/
def State.reset : State where
  cfg := Config.cfg
  cmd := 0#32
  cmdValid := false
  op := 0#4
  dir := .write
  addr7 := 0#7
  byte := 0#8
  len := 0#8
  buf := []
  busy := false
  done := false
  phase := .idle
  seq := .idle
  idx := 0#8
  tmo := 0#16
  outcome := .ok
  cause := .none
  stopUnconf := false
  illegal := false
  lastStatus := 0#8
  rxdata := 0#8
  bus := Config.busAtReset
  host := []
  script := []
  trace := []
  statLog := []
  resets := 0

end Sys2Proof.Machine
end

