-- ==== Sys2Proof/Machine/Flags.lean ====
section
/-! DEFINITION. The flag computations: the Status Decoder (40_status_decoder), the collapse of Cause to Outcome
(00_scope R11), the field codes and the STAT word (30_encoding R104). -/

namespace Sys2Proof.Machine

/-- `outcome_of` (00_scope R11). -/
def outcomeOf : Cause → Outcome
  | .none => .ok
  | .nack => .notAcknowledged
  | .arbLost => .protocolError
  | .busFault => .protocolError
  | .unrecognized => .protocolError
  | .timeout => .timedOut

/-- Code of OUTCOME (10_state R29). -/
def Outcome.code : Outcome → BitVec 2
  | .ok => 0
  | .notAcknowledged => 1
  | .protocolError => 2
  | .timedOut => 3

/-- Code of CAUSE (10_state R30). -/
def Cause.code : Cause → BitVec 3
  | .none => 0
  | .nack => 1
  | .arbLost => 2
  | .busFault => 3
  | .unrecognized => 4
  | .timeout => 5

/-- Code of PHASE (10_state R26). -/
def Phase.code : Phase → BitVec 3
  | .idle => 0
  | .startIssued => 1
  | .addressAcked => 2
  | .dataPhase => 3
  | .stopIssued => 4

/-- STATUS_MASK (00_scope R6): the top five bits of a status are significant. -/
def statusMask : Byte := 0xF8#8

/-- The code of a raw status (40_status_decoder R121). -/
def statusCode (raw : Byte) : Byte := raw &&& statusMask

/-- CLASSIFY (40_status_decoder R122): success set `s`, expected-failure code `f`. -/
def classify (cfg : Cfg) (raw : Byte) (s : List Byte) (f : Option Byte) : Cause :=
  let code := statusCode raw
  if code ∈ s then .none
  else if f = some code then .nack
  else if code = cfg.stArbLost then .arbLost
  else if code = cfg.stBusFault then .busFault
  else .unrecognized

/-- The seven Transaction Primitives (42_primitives). -/
inductive Primitive where
  /-- START. -/
  | start
  /-- RSTART. -/
  | rstart
  /-- ADDR, with its address and direction. -/
  | addr (a : BitVec 7) (d : Dir)
  /-- TXDATA, with its byte. -/
  | txdata (b : Byte)
  /-- RXACK. -/
  | rxack
  /-- RXNACK. -/
  | rxnack
  /-- STOP. -/
  | stop
  deriving DecidableEq, Repr, Inhabited

/-- The success set `S` of a primitive (42_primitives R151); STOP reads no status. -/
def Primitive.success (cfg : Cfg) : Primitive → List Byte
  | .start => [cfg.stStart]
  | .rstart => [cfg.stStart, cfg.stRstart]
  | .addr _ .write => [cfg.stTxAddrAck]
  | .addr _ .read => [cfg.stRxAddrAck]
  | .txdata _ => [cfg.stTxDataAck]
  | .rxack => [cfg.stRxDataAck]
  | .rxnack => [cfg.stRxDataNack]
  | .stop => []

/-- The expected-failure code `F` of a primitive (42_primitives R151). -/
def Primitive.failure (cfg : Cfg) : Primitive → Option Byte
  | .start => none
  | .rstart => none
  | .addr _ .write => some cfg.stTxAddrNack
  | .addr _ .read => some cfg.stRxAddrNack
  | .txdata _ => some cfg.stTxDataNack
  | .rxack => none
  | .rxnack => none
  | .stop => none

/-- The PHASE a primitive that returned None leaves (42_primitives R152). -/
def Primitive.phase : Primitive → Phase
  | .start => .startIssued
  | .rstart => .startIssued
  | .addr _ _ => .addressAcked
  | .txdata _ => .dataPhase
  | .rxack => .dataPhase
  | .rxnack => .dataPhase
  | .stop => .idle

/-- A flag as one bit. -/
def flag (b : Bool) : BitVec 1 := BitVec.ofBool b

/-- STAT, 32 bits (30_encoding R104): LAST_STATUS, IDX, four zeros, PHASE, ILLEGAL, STOP_UNCONF, CAUSE,
OUTCOME, DONE, BUSY, from bit 31 down. -/
def stat (s : State) : Word :=
  s.lastStatus ++ s.idx ++ 0#4 ++ s.phase.code ++ flag s.illegal ++ flag s.stopUnconf ++
    s.cause.code ++ s.outcome.code ++ flag s.done ++ flag s.busy

end Sys2Proof.Machine
end

