-- ==== Sys2Proof/Decode.lean ====
section
/-! DEFINITION. Decoding and encoding of the command word (30_encoding R90 to R97). -/

namespace Sys2Proof

/-- DIR as a bit: 0 for write, 1 for read (30_encoding R91, R98). -/
def Dir.toBit : Dir → BitVec 1
  | .write => 0#1
  | .read => 1#1

/-- The direction a DIR bit stands for. -/
def Dir.ofBit (b : BitVec 1) : Dir :=
  if b = 0#1 then .write else .read

/-- The fields of a command word (30_encoding R91). -/
def Cmd32.ofWord (w : Word) : Cmd32 where
  op := w.extractLsb' 28 4
  z1 := w.extractLsb' 25 3
  dir := w.extractLsb' 24 1
  z2 := w.extractLsb' 23 1
  addr7 := w.extractLsb' 16 7
  byte := w.extractLsb' 8 8
  len := w.extractLsb' 0 8

/-- The command word of given fields (30_encoding R91). -/
def Cmd32.toWord (f : Cmd32) : Word :=
  f.op ++ f.z1 ++ f.dir ++ f.z2 ++ f.addr7 ++ f.byte ++ f.len

/-- Why a word is no command (30_encoding R96): the reason the decoder rejects it by. -/
inductive IllegalWord where
  /-- OP is 0x0, 0xD, 0xE or 0xF. -/
  | opcode
  /-- A bit of Z1 is set. -/
  | z1
  /-- Z2 is set. -/
  | z2
  /-- DIR is set in a command that does not use it. -/
  | dir
  /-- ADDR7 is not zero in a command that does not use it. -/
  | addr7
  /-- BYTE is not zero in a command that does not use it. -/
  | byte
  /-- LEN is not zero in a command that does not use it. -/
  | len
  deriving DecidableEq, Repr, Inhabited

/-- What decoding a word gives: a command, or the name of the rule the word breaks. -/
inductive Decoded where
  /-- One of the twelve commands. -/
  | command (i : Instr)
  /-- No command (30_encoding R96). -/
  | illegal (why : IllegalWord)
  deriving DecidableEq, Repr, Inhabited

/-- The must-be-zero rules of 30_encoding R95 for a command that uses the fields `u`: the command `i` if they
hold, else the first one that is broken, from the most significant field down. -/
def checkZeros (f : Cmd32) (u : Used) (i : Instr) : Decoded :=
  if f.z1 ≠ 0 then .illegal .z1
  else if u.dir = false ∧ f.dir ≠ 0 then .illegal .dir
  else if f.z2 ≠ 0 then .illegal .z2
  else if u.addr7 = false ∧ f.addr7 ≠ 0 then .illegal .addr7
  else if u.byte = false ∧ f.byte ≠ 0 then .illegal .byte
  else if u.len = false ∧ f.len ≠ 0 then .illegal .len
  else .command i

/-- The opcode map of 30_encoding R93 over the fields of a word, with the must-be-zero rules of R95. -/
def decodeFields (f : Cmd32) : Decoded :=
  match f.op.toNat with
  | 0x1 => checkZeros f ⟨false, false, false, false⟩ .init
  | 0x2 => checkZeros f ⟨false, false, false, false⟩ .start
  | 0x3 => checkZeros f ⟨false, false, false, false⟩ .rstart
  | 0x4 => checkZeros f ⟨true, true, false, false⟩ (.addr (Dir.ofBit f.dir) f.addr7)
  | 0x5 => checkZeros f ⟨false, false, true, false⟩ (.txdata f.byte)
  | 0x6 => checkZeros f ⟨false, false, false, false⟩ .rxack
  | 0x7 => checkZeros f ⟨false, false, false, false⟩ .rxnack
  | 0x8 => checkZeros f ⟨false, false, false, false⟩ .stop
  | 0x9 => checkZeros f ⟨false, true, false, true⟩ (.bwrite f.addr7 f.len)
  | 0xA => checkZeros f ⟨false, true, false, true⟩ (.bread f.addr7 f.len)
  | 0xB => checkZeros f ⟨false, true, true, true⟩ (.wreg f.addr7 f.byte f.len)
  | 0xC => checkZeros f ⟨false, true, true, true⟩ (.rreg f.addr7 f.byte f.len)
  | _ => .illegal .opcode

/-- Decode a command word. Total: every word is one of the twelve commands or illegal (30_encoding R97). -/
def decode (w : Word) : Decoded :=
  decodeFields (Cmd32.ofWord w)

/-- The fields of a command (30_encoding R91, R93): unused ones are zero (R95). -/
def Instr.fields : Instr → Cmd32
  | .init => ⟨0x1#4, 0, 0, 0, 0, 0, 0⟩
  | .start => ⟨0x2#4, 0, 0, 0, 0, 0, 0⟩
  | .rstart => ⟨0x3#4, 0, 0, 0, 0, 0, 0⟩
  | .addr d a => ⟨0x4#4, 0, d.toBit, 0, a, 0, 0⟩
  | .txdata b => ⟨0x5#4, 0, 0, 0, 0, b, 0⟩
  | .rxack => ⟨0x6#4, 0, 0, 0, 0, 0, 0⟩
  | .rxnack => ⟨0x7#4, 0, 0, 0, 0, 0, 0⟩
  | .stop => ⟨0x8#4, 0, 0, 0, 0, 0, 0⟩
  | .bwrite a n => ⟨0x9#4, 0, 0, 0, a, 0, n⟩
  | .bread a n => ⟨0xA#4, 0, 0, 0, a, 0, n⟩
  | .wreg a b n => ⟨0xB#4, 0, 0, 0, a, b, n⟩
  | .rreg a b n => ⟨0xC#4, 0, 0, 0, a, b, n⟩

/-- A command is well-formed when its fields are. Its operands have the widths of their fields, so every
command is (Laws/PerInstr.lean; 92 D5). -/
abbrev Instr.WellFormed (i : Instr) : Prop := i.fields.wellFormed = true

/-- The command word of a command (30_encoding R91, R93). -/
def encode (i : Instr) : Word := i.fields.toWord

/-- One row of the match and mask table (30_encoding R94). -/
structure Row where
  /-- The mnemonic. -/
  mnemonic : String
  /-- The match value. -/
  pattern : Word
  /-- The mask. -/
  mask : Word
  deriving DecidableEq, Repr

/-- "A word `w` is the command of a row when `w & mask == match`" (30_encoding R94). -/
def Row.Matches (r : Row) (w : Word) : Prop := w &&& r.mask = r.pattern

/-- The table of 30_encoding R94, as it stands there. -/
def opcodeTable : List Row := [
  ⟨"INIT", 0x10000000#32, 0xFFFFFFFF#32⟩,
  ⟨"START", 0x20000000#32, 0xFFFFFFFF#32⟩,
  ⟨"RSTART", 0x30000000#32, 0xFFFFFFFF#32⟩,
  ⟨"ADDR", 0x40000000#32, 0xFE80FFFF#32⟩,
  ⟨"TXDATA", 0x50000000#32, 0xFFFF00FF#32⟩,
  ⟨"RXACK", 0x60000000#32, 0xFFFFFFFF#32⟩,
  ⟨"RXNACK", 0x70000000#32, 0xFFFFFFFF#32⟩,
  ⟨"STOP", 0x80000000#32, 0xFFFFFFFF#32⟩,
  ⟨"BWRITE", 0x90000000#32, 0xFF80FF00#32⟩,
  ⟨"BREAD", 0xA0000000#32, 0xFF80FF00#32⟩,
  ⟨"WREG", 0xB0000000#32, 0xFF800000#32⟩,
  ⟨"RREG", 0xC0000000#32, 0xFF800000#32⟩]

/-- The mnemonic of a command, as spec/opcode_table.json spells it. -/
def Instr.mnemonic : Instr → String
  | .init => "INIT"
  | .start => "START"
  | .rstart => "RSTART"
  | .addr _ _ => "ADDR"
  | .txdata _ => "TXDATA"
  | .rxack => "RXACK"
  | .rxnack => "RXNACK"
  | .stop => "STOP"
  | .bwrite _ _ => "BWRITE"
  | .bread _ _ => "BREAD"
  | .wreg _ _ _ => "WREG"
  | .rreg _ _ _ => "RREG"

/-- The alias of 30_encoding R107: the flag form of the start, `START allow=0` and `START allow=1`. -/
def startAllow (allow : Bool) : Instr :=
  if allow then .rstart else .start

/-- The command word an instruction of `nbits` bits with value `w` is presented as: the bits above `nbits`
are zero. The word is written to CMD as one unit (20_memory R64). -/
def tableWord (nbits w : Nat) : Word := BitVec.ofNat 32 (w % 2 ^ nbits)

/-- The command the decoder reads from a word numbered as spec/opcode_table.json numbers it. -/
def decodeTableWord (nbits w : Nat) : Option Instr :=
  match decode (tableWord nbits w) with
  | .command i => some i
  | .illegal _ => none

end Sys2Proof
end

