-- ==== Sys2Proof/Machine/Operands.lean ====
section
/-! DEFINITION. Operand assembly: the address byte (30_encoding R98), the divider (43_orchestrator R181), the
trigger patterns (30_encoding R102), and the operand latches (10_state R21). -/

namespace Sys2Proof.Machine

/-- The address byte: `(zext_8(ADDR7) << 1) | dir` (30_encoding R98). -/
def addrByte (a : BitVec 7) (d : Dir) : Byte :=
  (a.setWidth 8 <<< 1) ||| d.toBit.setWidth 8

/-- DIVIDER (43_orchestrator R181), in unbounded integers. -/
def divider (fRef bitRate divMax : Nat) : Nat :=
  if bitRate = 0 then divMax
  else
    let q : Nat := fRef / bitRate
    let n : Int := (q : Int) - 16
    if n < 0 then 0
    else
      let d : Nat := n.toNat / 2
      if d > divMax then divMax else d

/-- The divider INIT writes: a constant of the configuration (43_orchestrator R181). -/
def dividerOf (c : Cfg) : Nat := divider c.fRef c.bitRate c.divMax

/-- The pattern written to the control trigger for an action (30_encoding R102). -/
def triggerPattern (c : Cfg) : Action → Nat
  | .start => c.patStart
  | .stop => c.patStop
  | .transmit => c.patTransmit
  | .rxAck => c.patRxAck
  | .rxNack => c.patRxNack

/-- Whether an action is a receive, after which the data register holds a received byte (10_state R43). -/
def receives : Action → Bool
  | .rxAck => true
  | .rxNack => true
  | .start => false
  | .stop => false
  | .transmit => false

/-- The sequencer position a word enters at acceptance, by its OP alone (10_state R27, 30_encoding R92).
DESIGN CHOICE (log 9): R27 names no position for an illegal word. One whose OP is illegal leaves SEQ at S_IDLE; one
whose OP is legal and that has a must-be-zero bit set takes the position of its OP, until it completes. -/
def firstSeq (op : BitVec 4) : Seq :=
  match op.toNat with
  | 0x1 => .init
  | 0x2 | 0x3 | 0x4 | 0x5 | 0x6 | 0x7 | 0x8 => .prim
  | 0x9 | 0xA | 0xB | 0xC => .start
  | _ => .idle

end Sys2Proof.Machine
end

