-- ==== Sys2Proof/Machine/Ops.lean ====
section
/-! DEFINITION. The named operations over memory and registers: BUF (20_memory R61), the eight bus-controller
accesses (00_scope R10), the Timeout Guard (41_timeout_guard), STEP (42_primitives R150), acceptance
(30_encoding R92), completion (43_orchestrator R180), and the abort path (60_exceptions R214, R215). -/

namespace Sys2Proof.Machine

/-! ### Memory -/

/-- The number of bytes of BUF (00_scope R6, BUF_SIZE). -/
def bufSize : Nat := 256

/-- The canonical form of BUF: addresses strictly rising, each below BUF_SIZE. An unlisted address holds no
value, so no entry can equal what an unlisted address holds. -/
abbrev Memory.wf (m : Memory) : Prop :=
  m.Pairwise (fun x y => x.1 < y.1) ∧ ∀ c ∈ m, c.1 < bufSize

/-- The value something has written at an address, if anything has. -/
def Memory.lookup : Memory → Nat → Option Byte
  | [], _ => none
  | c :: m, a => if c.1 = a then some c.2 else Memory.lookup m a

/-- Write a byte, keeping the addresses in order. -/
def Memory.write : Memory → Nat → Byte → Memory
  | [], a, v => [(a, v)]
  | c :: m, a, v =>
    if a < c.1 then (a, v) :: c :: m
    else if a = c.1 then (a, v) :: m
    else c :: Memory.write m a v

/-- What an address of BUF reads as: the byte written there, else the free value of a byte nothing has written
since the last reset (log 5; 10_state R23, 93 U9). -/
def readBuf (s : State) (i : Byte) : Byte :=
  (Memory.lookup s.buf i.toNat).getD (Config.bufDraw s.resets i.toNat)

/-- `BUF[i] <- v` (20_memory R61). -/
def writeBuf (i v : Byte) (s : State) : State :=
  { s with buf := Memory.write s.buf i.toNat v }

/-! ### Register writes -/

/-- Record an event, and the STAT word a host polling at that moment reads (00_scope R12, 60_exceptions R221). -/
def emit (e : Event) (s : State) : State :=
  { s with trace := s.trace ++ [e], statLog := s.statLog ++ [stat s] }

/-- The bus controller changes. -/
def setBus (b : BusController) (s : State) : State := { s with bus := b }

/-- `TMO <- v` (10_state R35). -/
def setTmo (v : BitVec 16) (s : State) : State := { s with tmo := v }

/-- `PHASE <- p` (10_state R26). -/
def setPhase (p : Phase) (s : State) : State := { s with phase := p }

/-- `SEQ <- q` (10_state R27). -/
def setSeq (q : Seq) (s : State) : State := { s with seq := q }

/-- `LAST_STATUS <- v` (10_state R33). -/
def setLastStatus (v : Byte) (s : State) : State := { s with lastStatus := v }

/-- `RXDATA <- d` (10_state R34). -/
def setRxdata (d : Byte) (s : State) : State := { s with rxdata := d }

/-- `STOP_UNCONF <- b` (10_state R31). -/
def setStopUnconf (b : Bool) (s : State) : State := { s with stopUnconf := b }

/-- `IDX <- IDX + 1` (10_state R28). -/
def incIdx (s : State) : State := { s with idx := s.idx + 1 }

/-! ### BUF accesses of the core (20_memory R61) -/

/-- `MemRead(i, 1)`, event BufRd. -/
def memRead (i : Byte) (s : State) : Byte × State :=
  (readBuf s i, emit (.bufRd i (readBuf s i)) s)

/-- `MemWrite(i, 1, v)`, event BufWr. -/
def memWrite (i v : Byte) (s : State) : State :=
  emit (.bufWr i v) (writeBuf i v s)

/-! ### The eight bus-controller accesses (00_scope R10, 20_memory R68) -/

/-- `BC.WriteDivider(v)`. -/
def bcWriteDivider (v : Nat) (s : State) : State :=
  emit (.wrDiv v) (setBus { s.bus with divider := v } s)

/-- `BC.SetEnable()`. -/
def bcSetEnable (s : State) : State :=
  emit .setEn (setBus { s.bus with enabled := true } s)

/-- `BC.WriteData(b)`. -/
def bcWriteData (b : Byte) (s : State) : State :=
  emit (.wrData b) (setBus { s.bus with data := b } s)

/-- The responder's answer to the trigger just recorded (20_memory R72): the next one of the script, else the
free responder's, which knows the whole trace so far. -/
def nextResponse (s : State) : Response :=
  match s.script with
  | r :: _ => r
  | [] => Config.responder s.trace

/-- `BC.Trigger(a)`: requests action `a` and clears the completion flag (20_memory R68); a stop sets the
stop-in-progress flag (10_state R41). The responder answers it here. -/
def bcTrigger (a : Action) (s : State) : State :=
  let s := emit (.trig a) s
  { s with
    bus := { s.bus with
      control := triggerPattern s.cfg a
      action := some a
      completion := false
      stopBusy := s.bus.stopBusy || decide (a = .stop)
      pending := nextResponse s }
    script := s.script.tail }

/-- One poll by the controller's side: with no not-ready answer left the action has finished, else one is used
up; `never` stays (20_memory R72). -/
def pollPending (r : Response) : Bool × Response :=
  match r.notReady with
  | some 0 => (true, r)
  | some (k + 1) => (false, { r with notReady := some k })
  | none => (false, r)

/-- The controller finishes the action of the last trigger: it sets the completion flag, shows the status, and
after a receive the received byte (10_state R40, R42, R43). -/
def finishAction (b : BusController) : BusController :=
  { b with
    completion := true
    status := b.pending.status
    data := if b.action.any receives then b.pending.data else b.data }

/-- `BC.Done()`, event PollDone: the completion flag, and whether it was seen set. -/
def bcDone (s : State) : Bool × State :=
  let (ready, r) := pollPending s.bus.pending
  let b := { s.bus with pending := r }
  (ready, emit (.pollDone ready) (setBus (if ready then finishAction b else b) s))

/-- `BC.StopBusy()`, event PollStop: the stop-in-progress flag. The Boolean is readiness, "stop released", the
complement of the flag (41_timeout_guard R142). -/
def bcStopReleased (s : State) : Bool × State :=
  let (ready, r) := pollPending s.bus.pending
  (ready, emit (.pollStop !ready) (setBus { s.bus with pending := r, stopBusy := !ready } s))

/-- `BC.Status()`, event RdStatus; no side effect (20_memory R68). -/
def bcStatus (s : State) : Byte × State :=
  (s.bus.status, emit (.rdStatus s.bus.status) s)

/-- `BC.ReadData()`, event RdData; clears the completion flag (20_memory R68). -/
def bcReadData (s : State) : Byte × State :=
  (s.bus.data, emit (.rdData s.bus.data) (setBus { s.bus with completion := false } s))

/-! ### The Timeout Guard (41_timeout_guard R141) -/

/-- The loop of WAIT. The first argument is what TMO holds, as a number: the loop ends at 0, polls, and
decrements TMO after a poll that is not ready. The result is whether the flag was seen ready. -/
def waitLoop (poll : State → Bool × State) : Nat → State → Bool × State
  | 0, s => (false, s)
  | n + 1, s =>
    let (ready, s) := poll s
    if ready then (true, s) else waitLoop poll n (setTmo (s.tmo - 1) s)

/-- `WAIT(ready)`: true is Ok, false is TimedOut. -/
def wait (poll : State → Bool × State) (s : State) : Bool × State :=
  waitLoop poll s.cfg.timeoutBudget.toNat (setTmo s.cfg.timeoutBudget s)

/-- `WAIT_DONE()` (R142). -/
def waitDone (s : State) : Bool × State := wait bcDone s

/-- `WAIT_STOP()` (R142). -/
def waitStop (s : State) : Bool × State := wait bcStopReleased s

/-! ### Steps -/

/-- A procedure that returns a cause. -/
abbrev Proc := State → Cause × State

/-- `STEP(S, F)` (42_primitives R150): wait; on a timeout return at once; else read the status, latch it,
classify it. -/
def stepProc (success : List Byte) (failure : Option Byte) (s : State) : Cause × State :=
  let (ready, s) := waitDone s
  if ready then
    let (v, s) := bcStatus s
    (classify s.cfg v success failure, setLastStatus v s)
  else (.timeout, s)

/-- `if c == None: PHASE <- p` (42_primitives R152). -/
def phaseIfNone (p : Phase) (r : Cause × State) : Cause × State :=
  if r.1 = .none then (r.1, setPhase p r.2) else r

/-! ### Acceptance and completion -/

/-- Acceptance of a word with fields `f` (30_encoding R92): the five latches, BUSY, DONE, IDX and SEQ, at once. -/
def accept (f : Cmd32) (s : State) : State :=
  { s with
    op := f.op
    dir := Dir.ofBit f.dir
    addr7 := f.addr7
    byte := f.byte
    len := f.len
    busy := true
    done := false
    idx := 0#8
    seq := firstSeq f.op }

/-- `complete(c)` (43_orchestrator R180). -/
def complete (c : Cause) (s : State) : State :=
  { s with
    cause := c
    outcome := outcomeOf c
    illegal := false
    seq := .idle
    busy := false
    done := true }

/-- `complete_illegal()` (43_orchestrator R180). -/
def completeIllegal (s : State) : State :=
  { s with
    illegal := true
    seq := .idle
    busy := false
    done := true }

/-! ### The abort path, the spec's "trap entry and return" (60_exceptions R214, R215) -/

/-- Entry (R214): nothing is saved and nothing changes but the sequencer, which goes to the stop step. -/
def abortEntry (s : State) : State := setSeq .stop s

/-- One step of an operation (43_orchestrator R182): skipped once a step has failed; else run at position
`q`, and on a cause other than None the abort path is entered. -/
def runStep (q : Seq) (p : Proc) (r : Cause × State) : Cause × State :=
  if r.1 = .none then
    let (c, s) := p (setSeq q r.2)
    (c, if c = .none then s else abortEntry s)
  else r

/-! ### Reset -/

/-- The reset input (70_reset R240 to R242): every register of the core at its reset value; the configuration,
the bus controller, the ports and the environment are not touched; a running command is abandoned. -/
def coreReset (s : State) : State :=
  { State.reset with
    cfg := s.cfg
    cmd := s.cmd
    cmdValid := s.cmdValid
    bus := s.bus
    host := s.host
    script := s.script
    trace := s.trace
    statLog := s.statLog
    resets := s.resets + 1 }

end Sys2Proof.Machine
end

