-- ==== Sys2Proof/Machine/Agents.lean ====
section
/-! DEFINITION. What a step does besides running a command: the handshake (30_encoding R92), the illegal word
(R96), the host's other moves, and the reset input. -/

namespace Sys2Proof.Machine

/-- `cmd_ready = NOT BUSY` (30_encoding R92). -/
def cmdReady (s : State) : Bool := !s.busy

/-- Acceptance takes the word off the command input, so that it is not accepted twice. DESIGN CHOICE (log 3): R92 does
not say that `cmd_valid` falls. -/
def takeCommand (s : State) : State := { s with cmdValid := false }

/-- An illegal word (30_encoding R96): accepted like any word, completed at once. SEQ in between: log 9. -/
def runIllegal (w : Word) (s : State) : State :=
  completeIllegal (accept (Cmd32.ofWord w) s)

/-- A move of the host. -/
def hostMove (m : HostMove) (s : State) : State :=
  match m with
  | .present w => { s with cmd := w, cmdValid := true }
  | .writeBuf i b => writeBuf i b s
  | .reset => coreReset s

/-- The host's next move while no command is presented; with none left the core waits for a command
(70_reset R240). -/
def idleStep (s : State) : State :=
  match s.host with
  | [] => s
  | m :: rest => hostMove m { s with host := rest }

/-- A step while BUSY = 1. Only the reset input can do anything, and it abandons the command (70_reset R242); a
word presented is not accepted and has no effect, and the host has no other move (R92, R250). No step of this
model starts while BUSY = 1 in a run from reset: a command is one step (log 8). -/
def busyStep (s : State) : State :=
  match s.host with
  | .reset :: rest => coreReset { s with host := rest }
  | _ => s

/-- Write `w` on the command input so that the next step accepts it. -/
def presentWord (w : Word) (s : State) : State :=
  { s with cmd := w, cmdValid := true, busy := false }

end Sys2Proof.Machine
end

