-- ==== Sys2Proof/Machine/Primitives.lean ====
section
/-! DEFINITION. The Transaction Primitives (42_primitives R150 to R161): the seven steps, and their meanings as
commands. -/

namespace Sys2Proof.Machine

/-! ### The steps -/

/-- P_START (R153). -/
def pStart (s : State) : Cause × State :=
  let s := bcTrigger .start s
  phaseIfNone .startIssued (stepProc [s.cfg.stStart] none s)

/-- P_RSTART (R154). -/
def pRstart (s : State) : Cause × State :=
  let s := bcTrigger .start s
  phaseIfNone .startIssued (stepProc [s.cfg.stStart, s.cfg.stRstart] none s)

/-- P_ADDR (R155). -/
def pAddr (a : BitVec 7) (d : Dir) (s : State) : Cause × State :=
  let s := bcWriteData (addrByte a d) s
  let s := bcTrigger .transmit s
  phaseIfNone .addressAcked <|
    match d with
    | .write => stepProc [s.cfg.stTxAddrAck] (some s.cfg.stTxAddrNack) s
    | .read => stepProc [s.cfg.stRxAddrAck] (some s.cfg.stRxAddrNack) s

/-- P_TXDATA (R156). -/
def pTxdata (b : Byte) (s : State) : Cause × State :=
  let s := bcWriteData b s
  let s := bcTrigger .transmit s
  phaseIfNone .dataPhase (stepProc [s.cfg.stTxDataAck] (some s.cfg.stTxDataNack) s)

/-- The end of a receive (R157, R158): only a receive classified as None reads the data register into RXDATA. -/
def takeByte (r : Cause × State) : Cause × State :=
  if r.1 = .none then
    let (d, s) := bcReadData r.2
    (r.1, setRxdata d s)
  else r

/-- P_RXACK (R157). -/
def pRxack (s : State) : Cause × State :=
  let s := bcTrigger .rxAck s
  phaseIfNone .dataPhase (takeByte (stepProc [s.cfg.stRxDataAck] none s))

/-- P_RXNACK (R158). -/
def pRxnack (s : State) : Cause × State :=
  let s := bcTrigger .rxNack s
  phaseIfNone .dataPhase (takeByte (stepProc [s.cfg.stRxDataNack] none s))

/-- P_STOP (R159): always None; an exhausted wait is recorded in STOP_UNCONF. -/
def pStop (s : State) : Cause × State :=
  let s := bcTrigger .stop s
  let s := setPhase .stopIssued s
  let (released, s) := waitStop s
  let s := setStopUnconf (!released) s
  (.none, setPhase .idle s)

/-- The step a primitive names. -/
def runPrimitive : Primitive → Proc
  | .start => pStart
  | .rstart => pRstart
  | .addr a d => pAddr a d
  | .txdata b => pTxdata b
  | .rxack => pRxack
  | .rxnack => pRxnack
  | .stop => pStop

/-! ### The primitives as commands (R160): one step with the latched operands, then completion with its cause;
no stop on failure -/

/-- Acceptance, one body, completion: the frame of INIT and of every primitive command. -/
def runCommand (i : Instr) (body : Proc) (s : State) : Host.Outcome State Fault Refusal :=
  let r := body (accept i.fields s)
  .next (complete r.1 r.2)

/-- START (R153). -/
def execStart (s : State) : Host.Outcome State Fault Refusal :=
  runCommand .start pStart s

/-- RSTART (R154). -/
def execRstart (s : State) : Host.Outcome State Fault Refusal :=
  runCommand .rstart pRstart s

/-- ADDR (R155). -/
def execAddr (d : Dir) (a : BitVec 7) (s : State) : Host.Outcome State Fault Refusal :=
  runCommand (.addr d a) (fun s => pAddr s.addr7 s.dir s) s

/-- TXDATA (R156). -/
def execTxdata (b : Byte) (s : State) : Host.Outcome State Fault Refusal :=
  runCommand (.txdata b) (fun s => pTxdata s.byte s) s

/-- RXACK (R157). -/
def execRxack (s : State) : Host.Outcome State Fault Refusal :=
  runCommand .rxack pRxack s

/-- RXNACK (R158). -/
def execRxnack (s : State) : Host.Outcome State Fault Refusal :=
  runCommand .rxnack pRxnack s

/-- STOP (R159). -/
def execStop (s : State) : Host.Outcome State Fault Refusal :=
  runCommand .stop pStop s

end Sys2Proof.Machine
end

