-- ==== Sys2Proof/Machine/Orchestrator.lean ====
section
/-! DEFINITION. The Transfer Orchestrator and INIT (43_orchestrator R180 to R191). -/

namespace Sys2Proof.Machine

/-! ### Data phases -/

/-- One pass of the send loop of R183 and R185: read `BUF[IDX]`, send it, count it if it was acknowledged. -/
def sendOne (s : State) : Cause × State :=
  let (b, s) := memRead s.idx s
  let (c, s) := pTxdata b s
  (c, if c = .none then incIdx s else s)

/-- One pass of RECEIVE_ALL (R184): acknowledge every byte but the last (`IDX + 1 < LEN`, in naturals), store a
received byte, count it. -/
def receiveOne (s : State) : Cause × State :=
  let (c, s) := if s.idx.toNat + 1 < s.len.toNat then pRxack s else pRxnack s
  if c = .none then (c, incIdx (memWrite s.idx s.rxdata s)) else (c, s)

/-- `while c == None and IDX < LEN`, each pass at position S_DATA. The first argument bounds the passes
(R13: the loop increments IDX up to LEN). -/
def dataLoop (one : Proc) : Nat → Cause × State → Cause × State
  | 0, r => r
  | n + 1, r =>
    if r.1 = .none ∧ r.2.idx < r.2.len then dataLoop one n (runStep .data one r) else r

/-- Send `BUF[IDX..LEN-1]` (R183, R185). -/
def sendAll (r : Cause × State) : Cause × State :=
  dataLoop sendOne (r.2.len.toNat - r.2.idx.toNat) r

/-- RECEIVE_ALL (R184), shared by BREAD and RREG. -/
def receiveAll (r : Cause × State) : Cause × State :=
  dataLoop receiveOne (r.2.len.toNat - r.2.idx.toNat) r

/-! ### Bodies -/

/-- body BWRITE (R183). -/
def bodyBwrite (s : State) : Cause × State :=
  let r := runStep .start pStart (.none, s)
  let r := runStep .addrW (fun s => pAddr s.addr7 .write s) r
  sendAll r

/-- body BREAD (R184). -/
def bodyBread (s : State) : Cause × State :=
  let r := runStep .start pStart (.none, s)
  let r := runStep .addrR (fun s => pAddr s.addr7 .read s) r
  receiveAll r

/-- body WREG (R185). -/
def bodyWreg (s : State) : Cause × State :=
  let r := runStep .start pStart (.none, s)
  let r := runStep .addrW (fun s => pAddr s.addr7 .write s) r
  let r := runStep .reg (fun s => pTxdata s.byte s) r
  sendAll r

/-- body RREG (R186). -/
def bodyRreg (s : State) : Cause × State :=
  let r := runStep .start pStart (.none, s)
  let r := runStep .addrW (fun s => pAddr s.addr7 .write s) r
  let r := runStep .reg (fun s => pTxdata s.byte s) r
  let r := runStep .rstart pRstart r
  let r := runStep .addrR (fun s => pAddr s.addr7 .read s) r
  receiveAll r

/-! ### The frame of every operation (R182) -/

/-- The end of an operation, on every exit path: the stop step, whose own cause is discarded, then completion
with the cause of the body (R182; the return of the abort path, 60_exceptions R215). -/
def stopAndComplete (r : Cause × State) : State :=
  complete r.1 (pStop (setSeq .stop r.2)).2

/-- OPERATION(body) (R182), from acceptance on. -/
def runOperation (i : Instr) (body : Proc) (s : State) : Host.Outcome State Fault Refusal :=
  .next (stopAndComplete (body (accept i.fields s)))

/-- BWRITE (R183). -/
def execBwrite (a : BitVec 7) (n : Byte) (s : State) : Host.Outcome State Fault Refusal :=
  runOperation (.bwrite a n) bodyBwrite s

/-- BREAD (R184). -/
def execBread (a : BitVec 7) (n : Byte) (s : State) : Host.Outcome State Fault Refusal :=
  runOperation (.bread a n) bodyBread s

/-- WREG (R185). -/
def execWreg (a : BitVec 7) (b n : Byte) (s : State) : Host.Outcome State Fault Refusal :=
  runOperation (.wreg a b n) bodyWreg s

/-- RREG (R186). -/
def execRreg (a : BitVec 7) (b n : Byte) (s : State) : Host.Outcome State Fault Refusal :=
  runOperation (.rreg a b n) bodyRreg s

/-! ### Initialisation -/

/-- The two writes of INIT, divider before enable (R187). -/
def bodyInit (s : State) : Cause × State :=
  (.none, bcSetEnable (bcWriteDivider (dividerOf s.cfg) s))

/-- INIT (R187). -/
def execInit (s : State) : Host.Outcome State Fault Refusal :=
  runCommand .init bodyInit s

end Sys2Proof.Machine
end

