-- ==== Sys2Proof/Machine/Dispatch.lean ====
section
/-! DEFINITION. The meaning of each command, one direct call per constructor. -/

namespace Sys2Proof.Machine

def exec (i : Instr) (s : State) : Host.Outcome State Fault Refusal :=
  match i with
  | .init => Sys2Proof.Machine.execInit s
  | .start => Sys2Proof.Machine.execStart s
  | .rstart => Sys2Proof.Machine.execRstart s
  | .addr d a => Sys2Proof.Machine.execAddr d a s
  | .txdata b => Sys2Proof.Machine.execTxdata b s
  | .rxack => Sys2Proof.Machine.execRxack s
  | .rxnack => Sys2Proof.Machine.execRxnack s
  | .stop => Sys2Proof.Machine.execStop s
  | .bwrite a n => Sys2Proof.Machine.execBwrite a n s
  | .bread a n => Sys2Proof.Machine.execBread a n s
  | .wreg a b n => Sys2Proof.Machine.execWreg a b n s
  | .rreg a b n => Sys2Proof.Machine.execRreg a b n s

end Sys2Proof.Machine
end

