-- ==== Sys2Proof/Machine/Step.lean ====
section
/-! DEFINITION. One step of the system: a command run from acceptance to completion, or a move of the host. -/

namespace Sys2Proof.Machine

/-- One step. A word on CMD is accepted in the step in which `cmd_valid` and `cmd_ready` are both 1
(30_encoding R92), and the command runs to its completion in that step (70_reset R249). -/
def step (s : State) : Host.Outcome State Fault Refusal :=
  if s.busy then .next (busyStep s)
  else if s.cmdValid then
    match decode s.cmd with
    | .command i => exec i (takeCommand s)
    | .illegal _ => .next (runIllegal s.cmd (takeCommand s))
  else .next (idleStep s)

/-- `s` with an instruction word presented on CMD, so that the next step accepts and runs it (log 3). -/
def State.withFetchWord (s : State) (nbits w : Nat) : State :=
  presentWord (tableWord nbits w) s

end Sys2Proof.Machine
end

