-- ==== Sys2Proof/Machine/Trace.lean ====
section
/-! DEFINITION. Projections of the observable trace (00_scope R12): the bus sequence, triggers, polls. -/

namespace Sys2Proof.Machine

/-- A bus-level step, in the vocabulary of the source's scenarios (00_scope R12). -/
inductive BusStep where
  /-- "start". -/
  | start
  /-- "repeated-start". -/
  | repeatedStart
  /-- "address(b)": the first byte after a start. -/
  | address (b : Byte)
  /-- "byte b". -/
  | byte (b : Byte)
  /-- "ack-receive". -/
  | ackReceive
  /-- "nack-receive". -/
  | nackReceive
  /-- "stop". -/
  | stop
  deriving DecidableEq, Repr, Inhabited

/-- What the projection remembers of the events so far. -/
structure BusView where
  /-- The byte written by the event just before, if that was a WrData. -/
  loaded : Option Byte
  /-- A start was triggered and no stop since. -/
  opened : Bool
  /-- A start was triggered and no byte sent since: the next byte is the first after a start. -/
  first : Bool
  deriving DecidableEq, Repr, Inhabited

/-- The step an event adds to the bus sequence, if any (00_scope R12). -/
def busStep (v : BusView) : Event → Option BusStep
  | .trig .start => some (if v.opened then .repeatedStart else .start)
  | .trig .transmit => v.loaded.map fun b => if v.first then .address b else .byte b
  | .trig .rxAck => some .ackReceive
  | .trig .rxNack => some .nackReceive
  | .trig .stop => some .stop
  | .wrData _ => none
  | .wrDiv _ => none
  | .setEn => none
  | .pollDone _ => none
  | .pollStop _ => none
  | .rdStatus _ => none
  | .rdData _ => none
  | .bufRd _ _ => none
  | .bufWr _ _ => none

/-- The view after an event. A byte is a WrData with its transmit right after it; only a byte ends "the first byte
after a start", a stop in between does not (00_scope R12). -/
def BusView.next (v : BusView) : Event → BusView
  | .wrData b => { v with loaded := some b }
  | .trig .start => ⟨none, true, true⟩
  | .trig .transmit => { v with loaded := none, first := v.first && v.loaded.isNone }
  | .trig .rxAck => { v with loaded := none }
  | .trig .rxNack => { v with loaded := none }
  | .trig .stop => { v with loaded := none, opened := false }
  | .wrDiv _ => { v with loaded := none }
  | .setEn => { v with loaded := none }
  | .pollDone _ => { v with loaded := none }
  | .pollStop _ => { v with loaded := none }
  | .rdStatus _ => { v with loaded := none }
  | .rdData _ => { v with loaded := none }
  | .bufRd _ _ => { v with loaded := none }
  | .bufWr _ _ => { v with loaded := none }

/-- The bus sequence seen from a view on. -/
def busSequenceFrom : BusView → List Event → List BusStep
  | _, [] => []
  | v, e :: es => (busStep v e).toList ++ busSequenceFrom (v.next e) es

/-- The bus sequence of a trace (00_scope R12). -/
def busSequence (t : List Event) : List BusStep := busSequenceFrom ⟨none, false, false⟩ t

/-- The action an event triggers, if it is a trigger. -/
def triggered : Event → Option Action
  | .trig a => some a
  | _ => none

/-- The triggers of a trace, in order. -/
def triggers (t : List Event) : List Action := t.filterMap triggered

/-- An event is a poll (00_scope R16). -/
def isPoll : Event → Bool
  | .pollDone _ => true
  | .pollStop _ => true
  | _ => false

/-- The number of polls in a trace. -/
def pollCount (t : List Event) : Nat := t.countP isPoll

/-- An event is an access of BUF. -/
def isBufEvent : Event → Bool
  | .bufRd _ _ => true
  | .bufWr _ _ => true
  | _ => false

/-- The trace without its BUF accesses: what the bus controller sees. -/
def busEvents (t : List Event) : List Event := t.filter fun e => !isBufEvent e

end Sys2Proof.Machine
end

