-- ==== Sys2Proof/Safety.lean ====
section
/-! DEFINITION. The terms claims use: the invariant of the machine (10_state R46), the closed form of one wait and
of one step, and an operation as the list of its steps played until the first failure (43_orchestrator R182). -/

namespace Sys2Proof.Machine

/-! ### The invariant -/

/-- BUSY as read in a STAT word (30_encoding R104). -/
def statBusy (w : Word) : Bool := w.getLsbD 0

/-- DONE as read in a STAT word (30_encoding R104). -/
def statDone (w : Word) : Bool := w.getLsbD 1

/-- What holds between any two steps. From the spec: the configuration is well-formed (00_scope R7), IDX <= LEN and
OUTCOME agrees with CAUSE (10_state R46). The model's choices: BUF is in canonical form (log 5); no command is in the
middle, so BUSY = 0, SEQ = S_IDLE and PHASE is not StopIssued, which hold between steps only because a command is
one step (log 8); the record has one STAT word for each event, and each shows BUSY = 1 and DONE = 0 (log 7). -/
structure State.Inv (s : State) : Prop where
  /-- 00_scope R7. -/
  cfg : s.cfg.WellFormed
  /-- The canonical form of BUF (log 5). -/
  buf : Memory.wf s.buf
  /-- No command is in the middle: a command is one step (log 8). -/
  busy : s.busy = false
  /-- No command is in the middle: a command is one step (log 8). -/
  seq : s.seq = .idle
  /-- 10_state R28, R46. -/
  idx : s.idx ≤ s.len
  /-- 10_state R30, R46. -/
  outcome : s.outcome = outcomeOf s.cause
  /-- STOP leaves StopIssued before it completes (42_primitives R152), and a command is one step (log 8). -/
  phase : s.phase ≠ .stopIssued
  /-- One STAT word for each event: the model's record (log 7). -/
  log : s.statLog.length = s.trace.length
  /-- The recorded words (log 7) were read while a command ran. -/
  window : ∀ w ∈ s.statLog, statBusy w = true ∧ statDone w = false

/-! ### One wait, in closed form (41_timeout_guard R141) -/

/-- The wait ends ready within `b` polls: `k < b`. -/
def timely (b : Nat) (r : Response) : Bool :=
  match r.notReady with
  | some k => decide (k < b)
  | none => false

/-- The polls of a wait: `k + 1` of them when `k < b`, the last one ready; else `b`, none of them ready. -/
def waitEvents (b : Nat) (r : Response) (notReady ready : Event) : List Event :=
  match r.notReady with
  | some k => if k < b then List.replicate k notReady ++ [ready] else List.replicate b notReady
  | none => List.replicate b notReady

/-! ### One step, in closed form (42_primitives R150 to R159) -/

/-- The action a primitive triggers. -/
def Primitive.action : Primitive → Action
  | .start => .start
  | .rstart => .start
  | .addr _ _ => .transmit
  | .txdata _ => .transmit
  | .rxack => .rxAck
  | .rxnack => .rxNack
  | .stop => .stop

/-- The byte a primitive loads before its trigger, if it transmits. -/
def Primitive.loads : Primitive → List Event
  | .addr a d => [.wrData (addrByte a d)]
  | .txdata b => [.wrData b]
  | .start => []
  | .rstart => []
  | .rxack => []
  | .rxnack => []
  | .stop => []

/-- The cause a primitive returns when its trigger is answered by `r` (R150, R159). -/
def primCause (cfg : Cfg) (p : Primitive) (r : Response) : Cause :=
  if p = .stop then .none
  else if timely cfg.timeoutBudget.toNat r then classify cfg r.status (p.success cfg) (p.failure cfg)
  else .timeout

/-- The events of a primitive after its trigger, answered by `r`. -/
def primAnswerEvents (cfg : Cfg) (p : Primitive) (r : Response) : List Event :=
  if p = .stop then waitEvents cfg.timeoutBudget.toNat r (.pollStop true) (.pollStop false)
  else
    waitEvents cfg.timeoutBudget.toNat r (.pollDone false) (.pollDone true) ++
      (if timely cfg.timeoutBudget.toNat r then [.rdStatus r.status] else []) ++
      (if receives p.action = true ∧ primCause cfg p r = .none then [.rdData r.data] else [])

/-- The answer the trigger of an action `a` gets in state `s` when the events `before` come first. -/
def answerTo (s : State) (before : List Event) (a : Action) : Response :=
  match s.script with
  | r :: _ => r
  | [] => Config.responder (s.trace ++ before ++ [.trig a])

/-- The answer the trigger of primitive `p` gets in state `s` (20_memory R72). -/
def answer (s : State) (p : Primitive) : Response := answerTo s p.loads p.action

/-- The events of primitive `p` issued in state `s`. -/
def primEvents (s : State) (p : Primitive) : List Event :=
  p.loads ++ [.trig p.action] ++ primAnswerEvents s.cfg p (answer s p)

/-- The wait of primitive `p`, issued in state `s`, ends within the budget. -/
def inTime (s : State) (p : Primitive) : Bool := timely s.cfg.timeoutBudget.toNat (answer s p)

/-- The polls of primitive `p`, issued in state `s`: of the stop-in-progress flag for STOP, else of the completion
flag (41_timeout_guard R142). -/
def polls (s : State) (p : Primitive) : List Event :=
  if p = .stop then waitEvents s.cfg.timeoutBudget.toNat (answer s p) (.pollStop true) (.pollStop false)
  else waitEvents s.cfg.timeoutBudget.toNat (answer s p) (.pollDone false) (.pollDone true)

/-- How many of them find the flag not ready. -/
def missed (s : State) (p : Primitive) : Nat :=
  (polls s p).countP fun e => decide (e = .pollDone false ∨ e = .pollStop true)

/-! ### An operation as its list of steps -/

/-- A step of an operation's body. -/
inductive Move where
  /-- A primitive that moves no data byte of the transfer. -/
  | prim (p : Primitive)
  /-- Send byte `i` of BUF, which reads as `b`. -/
  | send (i : Byte) (b : Byte)
  /-- Receive byte `i`; `last` is "the last byte". -/
  | receive (i : Byte) (last : Bool)
  deriving DecidableEq, Repr, Inhabited

/-- The primitive of a step. -/
def Move.primitive : Move → Primitive
  | .prim p => p
  | .send _ b => .txdata b
  | .receive _ last => if last then .rxnack else .rxack

/-- The BUF access before the step's primitive. -/
def Move.before : Move → List Event
  | .send i b => [.bufRd i b]
  | .prim _ => []
  | .receive _ _ => []

/-- The BUF access after the step's primitive, if it succeeded and `r` answered it. -/
def Move.after (r : Response) : Move → List Event
  | .receive i _ => [.bufWr i r.data]
  | .prim _ => []
  | .send _ _ => []

/-- Whether the step moves a data byte, which IDX counts (10_state R28). -/
def Move.counts : Move → Bool
  | .send _ _ => true
  | .receive _ _ => true
  | .prim _ => false

/-- How far a list of steps has been played. -/
structure Play where
  /-- The cause of the first step that failed, or None. -/
  cause : Cause
  /-- Steps executed, the failing one included (43_orchestrator R188, `n`). -/
  executed : Nat
  /-- Data bytes completed with cause None (10_state R28). -/
  counted : Nat
  /-- Data bytes received, in order. -/
  received : List Byte
  /-- The last status read. -/
  lastStatus : Byte
  /-- The events so far. -/
  trace : List Event
  /-- The responses not used yet. -/
  script : List Response
  deriving DecidableEq, Repr

/-- Play one step: nothing once a step has failed (43_orchestrator R182). -/
def playMove (cfg : Cfg) (p : Play) (m : Move) : Play :=
  if p.cause ≠ .none then p
  else
    let t := p.trace ++ m.before ++ m.primitive.loads ++ [.trig m.primitive.action]
    let r := p.script.headD (Config.responder t)
    let c := primCause cfg m.primitive r
    { cause := c
      executed := p.executed + 1
      counted := if c = .none ∧ m.counts = true then p.counted + 1 else p.counted
      received := if c = .none ∧ receives m.primitive.action = true then p.received ++ [r.data] else p.received
      lastStatus :=
        if m.primitive ≠ .stop ∧ timely cfg.timeoutBudget.toNat r = true then r.status else p.lastStatus
      trace := t ++ primAnswerEvents cfg m.primitive r ++ (if c = .none then m.after r else [])
      script := p.script.tail }

/-- Play a list of steps from state `s`. -/
def play (s : State) (ms : List Move) : Play :=
  ms.foldl (playMove s.cfg) ⟨.none, 0, 0, [], s.lastStatus, s.trace, s.script⟩

/-- The stop that ends every operation, played after the body whatever the body's cause (43_orchestrator R182). -/
def playStop (cfg : Cfg) (p : Play) : Play :=
  { playMove cfg { p with cause := .none } (.prim .stop) with cause := p.cause }

/-- The data steps that send `BUF[0..n-1]`. -/
def sendMoves (s : State) (n : Byte) : List Move :=
  (List.range n.toNat).map fun i => .send (BitVec.ofNat 8 i) (readBuf s (BitVec.ofNat 8 i))

/-- The data steps that receive `n` bytes: `n - 1` with ack, the last with nack; none for `n = 0`
(43_orchestrator R184). -/
def receiveMoves (n : Byte) : List Move :=
  (List.range n.toNat).map fun i => .receive (BitVec.ofNat 8 i) (decide (i + 1 = n.toNat))

/-- The steps of an operation's body (43_orchestrator R183 to R186); of the other commands, none. -/
def bodyMoves (s : State) : Instr → List Move
  | .bwrite a n => [.prim .start, .prim (.addr a .write)] ++ sendMoves s n
  | .bread a n => [.prim .start, .prim (.addr a .read)] ++ receiveMoves n
  | .wreg a b n => [.prim .start, .prim (.addr a .write), .prim (.txdata b)] ++ sendMoves s n
  | .rreg a b n =>
    [.prim .start, .prim (.addr a .write), .prim (.txdata b), .prim .rstart, .prim (.addr a .read)] ++ receiveMoves n
  | .init => []
  | .start => []
  | .rstart => []
  | .addr _ _ => []
  | .txdata _ => []
  | .rxack => []
  | .rxnack => []
  | .stop => []

/-- The command is one of the four operations (43_orchestrator). -/
def isOperation : Instr → Bool
  | .bwrite _ _ => true
  | .bread _ _ => true
  | .wreg _ _ _ => true
  | .rreg _ _ _ => true
  | .init => false
  | .start => false
  | .rstart => false
  | .addr _ _ => false
  | .txdata _ => false
  | .rxack => false
  | .rxnack => false
  | .stop => false

/-- The primitive command that issues a primitive on its own (42_primitives R160). -/
def Primitive.command : Primitive → Instr
  | .start => .start
  | .rstart => .rstart
  | .addr a d => .addr d a
  | .txdata b => .txdata b
  | .rxack => .rxack
  | .rxnack => .rxnack
  | .stop => .stop

/-- Run commands one after another, each after the one before has completed. -/
def runCommands : List Instr → State → Option State
  | [], s => some s
  | i :: is, s =>
    match exec i s with
    | .next t => runCommands is t
    | .fault _ => none
    | .refused _ => none

/-- What no command changes: the configuration, the command input, the host's moves, the count of resets
(70_reset R250, 20_memory R73, R75); and the trace only grows (00_scope R12). -/
structure CommandFrame (s t : State) : Prop where
  cfg : t.cfg = s.cfg
  cmd : t.cmd = s.cmd
  cmdValid : t.cmdValid = s.cmdValid
  host : t.host = s.host
  resets : t.resets = s.resets
  trace : s.trace <+: t.trace
  statLog : s.statLog <+: t.statLog

/-- The command completed with a cause (43_orchestrator R180): CAUSE, OUTCOME, ILLEGAL, SEQ, BUSY, DONE. -/
structure Completed (c : Cause) (t : State) : Prop where
  cause : t.cause = c
  outcome : t.outcome = outcomeOf c
  illegal : t.illegal = false
  seq : t.seq = .idle
  busy : t.busy = false
  done : t.done = true

/-- The status reads of a trace, in order. -/
def statusReads (t : List Event) : List Byte :=
  t.filterMap fun e => match e with | .rdStatus v => some v | _ => none

/-- The data reads of a trace, in order. -/
def dataReads (t : List Event) : List Byte :=
  t.filterMap fun e => match e with | .rdData d => some d | _ => none

/-- A status read directly follows a ready poll, and a data read directly follows a status read: the order rule
of 20_memory R70, over a trace with the event before it. -/
def ordered : Event → List Event → Bool
  | _, [] => true
  | p, .rdStatus v :: es => decide (p = .pollDone true) && ordered (.rdStatus v) es
  | p, .rdData d :: es => (match p with | .rdStatus _ => true | _ => false) && ordered (.rdData d) es
  | _, e :: es => ordered e es

end Sys2Proof.Machine
end

