-- ==== Sys2Proof/Certificates/Slice0/Obligations.lean ====
section
/-! DEFINITION. The statements for the provers. Each docstring names the rule of spec/ it formalises or rests on. A
statement about the answer to a trigger holds for every answer: State holds the answers to come (`script`), and the
free responder gives the rest (20_memory R72). -/

section
open Sys2Proof Sys2Proof.Machine

/-! ### Encodings -/

/-- 30_encoding R91, R93, R95: no bit of an encoding is dropped. -/
def Obligations.DecodeOfEncode : Prop :=
  ∀ i : Instr, i.WellFormed → decode (encode i) = .command i

/-- 30_encoding R91, R95: every legal word is the encoding of the command it decodes to, so it has one meaning. -/
def Obligations.EncodeOfDecode : Prop :=
  ∀ (w : Word) (i : Instr), decode w = .command i → encode i = w

/-- 30_encoding R94. -/
def Obligations.MatchAndMask : Prop :=
  ∀ (w : Word), ∀ r ∈ opcodeTable, r.Matches w ↔ ∃ i, decode w = .command i ∧ i.mnemonic = r.mnemonic

/-- 30_encoding R95: the must-be-zero fields, the words that violate them, and the rows. -/
def Obligations.MustBeZeroFields : Prop :=
  (∀ (w : Word) (i : Instr), decode w = .command i →
    ∃ u, Used.ofOp (Cmd32.ofWord w).op = some u ∧ (Cmd32.ofWord w).MustBeZero u) ∧
  (∀ (w : Word), (Cmd32.ofWord w).wellFormed = false →
    (∀ r ∈ opcodeTable, ¬ r.Matches w) ∧ ∃ why, decode w = .illegal why) ∧
  opcodeTable.Pairwise (fun r q => ∀ w, ¬ (r.Matches w ∧ q.Matches w))

/-- Sanity: words written out from 30_encoding R91 and R93 (95_test_vectors 2.8). -/
def Obligations.DecodedWords : Prop :=
  decode 0b0001_000_0_0_0000000_00000000_00000000#32 = .command .init ∧
  decode 0b0100_000_1_0_1010000_00000000_00000000#32 = .command (.addr .read 0x50) ∧
  decode 0b0101_000_0_0_0000000_10101011_00000000#32 = .command (.txdata 0xAB) ∧
  decode 0b1000_000_0_0_0000000_00000000_00000000#32 = .command .stop ∧
  decode 0b1100_000_0_0_1010000_00010000_00000011#32 = .command (.rreg 0x50 0x10 3) ∧
  decode 0b0100_000_0_1_0000000_00000000_00000000#32 = .illegal .z2

/-- 30_encoding R98. -/
def Obligations.AddressByte : Prop :=
  (∀ (a : BitVec 7) (d : Dir), (addrByte a d).extractLsb' 1 7 = a ∧ (addrByte a d).getLsbD 0 = decide (d = .read) ∧
    (addrByte a d).toNat = 2 * a.toNat + d.toBit.toNat) ∧
  addrByte 0x50 .write = 0xA0 ∧ addrByte 0x50 .read = 0xA1

/-- 30_encoding R104. -/
def Obligations.StatLayout : Prop :=
  ∀ s : State,
    (stat s).getLsbD 0 = s.busy ∧ (stat s).getLsbD 1 = s.done ∧
    (stat s).extractLsb' 2 2 = (match s.outcome with
      | .ok => 0#2 | .notAcknowledged => 1#2 | .protocolError => 2#2 | .timedOut => 3#2) ∧
    (stat s).extractLsb' 4 3 = (match s.cause with
      | .none => 0#3 | .nack => 1#3 | .arbLost => 2#3 | .busFault => 3#3 | .unrecognized => 4#3 | .timeout => 5#3) ∧
    (stat s).getLsbD 7 = s.stopUnconf ∧ (stat s).getLsbD 8 = s.illegal ∧
    (stat s).extractLsb' 9 3 = (match s.phase with
      | .idle => 0#3 | .startIssued => 1#3 | .addressAcked => 2#3 | .dataPhase => 3#3 | .stopIssued => 4#3) ∧
    (stat s).extractLsb' 12 4 = 0#4 ∧ (stat s).extractLsb' 16 8 = s.idx ∧ (stat s).extractLsb' 24 8 = s.lastStatus

/-! ### Steps, the host and reset -/

/-- 30_encoding R92: a step whose word decodes to a command is that command's meaning; the step itself only takes
the word off the command input (log 3), and a command is one step (log 8). -/
def Obligations.StepRunsDecodedCommand : Prop :=
  (∀ (s : State) (i : Instr), s.busy = false → s.cmdValid = true → decode s.cmd = .command i → i.WellFormed →
    step s = exec i (takeCommand s)) ∧
  (∀ (s : State) (nbits w : Nat) (i : Instr), decodeTableWord nbits w = some i →
    step (s.withFetchWord nbits w) = exec i (takeCommand (presentWord (tableWord nbits w) s)))

/-- 30_encoding R92 (acceptance) and 10_state R21, R24, R25: the latches hold the fields of the word, and one STAT
word for each event of the command shows BUSY = 1 and DONE = 0. The model's choices: that the word is taken, `cmdValid`
falling (log 3; R92 does not say so); the record of STAT words, one for each event (log 7); a command is one step
(log 8). -/
def Obligations.AcceptedCommandRunsBusy : Prop :=
  ∀ (s : State) (i : Instr), s.busy = false → s.cmdValid = true → decode s.cmd = .command i →
    ∃ t, step s = .next t ∧ t.cmdValid = false ∧
      t.op = (Cmd32.ofWord s.cmd).op ∧ t.dir = Dir.ofBit (Cmd32.ofWord s.cmd).dir ∧
      t.addr7 = (Cmd32.ofWord s.cmd).addr7 ∧ t.byte = (Cmd32.ofWord s.cmd).byte ∧ t.len = (Cmd32.ofWord s.cmd).len ∧
      ∃ events new, t.trace = s.trace ++ events ∧ t.statLog = s.statLog ++ new ∧ new.length = events.length ∧
        ∀ w ∈ new, statBusy w = true ∧ statDone w = false

/-- 30_encoding R96. -/
def Obligations.IllegalWordCompletesAtOnce : Prop :=
  (∀ w : Word, (∀ r ∈ opcodeTable, ¬ r.Matches w) ↔
    ((Cmd32.ofWord w).op ∈ [0x0#4, 0xD#4, 0xE#4, 0xF#4] ∨
      ∃ u, Used.ofOp (Cmd32.ofWord w).op = some u ∧ ¬ (Cmd32.ofWord w).MustBeZero u)) ∧
  (∀ s : State, s.busy = false → s.cmdValid = true → (∀ r ∈ opcodeTable, ¬ r.Matches s.cmd) →
    ∃ t, step s = .next t ∧ t.illegal = true ∧ t.seq = .idle ∧ t.busy = false ∧ t.done = true ∧ t.idx = 0 ∧
      t.op = (Cmd32.ofWord s.cmd).op ∧ t.dir = Dir.ofBit (Cmd32.ofWord s.cmd).dir ∧
      t.addr7 = (Cmd32.ofWord s.cmd).addr7 ∧ t.byte = (Cmd32.ofWord s.cmd).byte ∧ t.len = (Cmd32.ofWord s.cmd).len ∧
      t.trace = s.trace ∧ t.bus = s.bus ∧ t.outcome = s.outcome ∧ t.cause = s.cause ∧
      t.stopUnconf = s.stopUnconf ∧ t.phase = s.phase ∧ t.lastStatus = s.lastStatus ∧ t.rxdata = s.rxdata ∧
      t.buf = s.buf)

/-- 30_encoding R92: "A word presented while BUSY = 1 is not accepted and has no effect". That a step
taken while BUSY = 1 does nothing else is the model's (log 8). -/
def Obligations.WordWaitsWhileBusy : Prop :=
  ∀ (s : State) (w : Word), s.busy = true → (∀ rest, s.host ≠ .reset :: rest) →
    step { s with cmd := w, cmdValid := true } = .next { s with cmd := w, cmdValid := true }

/-- 20_memory R75, 30_encoding R92, 70_reset R240: the host's moves while BUSY = 0, and the wait for a command. The list
of moves is the model's (log 3). -/
def Obligations.HostMovesWhileIdle : Prop :=
  ∀ s : State, s.busy = false → s.cmdValid = false →
    (s.host = [] → step s = .next s) ∧
    (∀ w rest, s.host = .present w :: rest →
      step s = .next { s with host := rest, cmd := w, cmdValid := true }) ∧
    (∀ i b rest, s.host = .writeBuf i b :: rest →
      ∃ t, step s = .next t ∧ readBuf t i = b ∧ (∀ j, j ≠ i → readBuf t j = readBuf s j) ∧
        t = { s with host := rest, buf := t.buf })

/-- 10_state R50: the values the spec gives for reset. -/
def Obligations.ResetValues : Prop :=
  State.reset.busy = false ∧ State.reset.done = false ∧ State.reset.phase = .idle ∧ State.reset.seq = .idle ∧
  State.reset.idx = 0 ∧ State.reset.outcome = .ok ∧ State.reset.cause = .none ∧ State.reset.stopUnconf = false ∧
  State.reset.illegal = false

/-- 70_reset R240 to R242: the reset input, also while a command runs: the registers of 10_state R50, no completion,
no stop, the bus controller untouched. When the host moves is the model's (log 3, log 8). -/
def Obligations.ResetInput : Prop :=
  ∀ (s : State) (rest : List HostMove), s.host = .reset :: rest → (s.busy = true ∨ s.cmdValid = false) →
    ∃ t, step s = .next t ∧ t.busy = false ∧ t.done = false ∧ t.phase = .idle ∧ t.seq = .idle ∧ t.idx = 0 ∧
      t.outcome = .ok ∧ t.cause = .none ∧ t.stopUnconf = false ∧ t.illegal = false ∧
      t.bus = s.bus ∧ t.trace = s.trace ∧ t.script = s.script ∧ t.cfg = s.cfg ∧ t.host = rest

/-- 10_state R46, R50, 00_scope R7: the invariant holds after reset. Its clauses about the canonical form of BUF (log
5), the records (log 7) and the rest between steps (log 8) are the model's. -/
def Obligations.ResetStateInv : Prop := State.reset.Inv

/-- 10_state R46, R28, 00_scope R7: every step keeps the invariant. The model's choices in it: BUSY = 0, SEQ = S_IDLE
and PHASE not StopIssued between steps, because a command is one step (log 8); the canonical form of BUF (log 5); the
records and what they show (log 7). -/
def Obligations.StepKeepsInv : Prop :=
  ∀ s t : State, s.Inv → step s = .next t → t.Inv

/-- 70_reset R250 (c), R254: "The divider is a constant of `Cfg`"; no step changes the configuration. -/
def Obligations.StepKeepsConfiguration : Prop :=
  ∀ s t : State, step s = .next t → t.cfg = s.cfg

/-- 10_state R37, R38: no step clears the enable flag, and only INIT writes the divider. -/
def Obligations.EnableAndDivider : Prop :=
  ∀ s t : State, step s = .next t →
    (s.bus.enabled = true → t.bus.enabled = true) ∧
    (t.bus.divider ≠ s.bus.divider → decode s.cmd = .command .init ∧ t.bus.divider = dividerOf s.cfg)

/-- 00_scope R10, 20_memory R68, 10_state R40: each access of the bus controller is one event; a trigger requests its
action and clears the completion flag, a data read clears it, and the three other reads change nothing but what the
bus controller itself changes. -/
def Obligations.AccessSideEffects : Prop :=
  ∀ (s : State) (a : Action) (v : Nat) (b : Byte),
    ((bcTrigger a s).trace = s.trace ++ [Event.trig a] ∧ (bcTrigger a s).bus.action = some a ∧
      (bcTrigger a s).bus.control = triggerPattern s.cfg a ∧ (bcTrigger a s).bus.completion = false ∧
      (bcTrigger a s).bus.data = s.bus.data) ∧
    ((bcReadData s).1 = s.bus.data ∧ (bcReadData s).2.trace = s.trace ++ [Event.rdData s.bus.data] ∧
      (bcReadData s).2.bus = ({ s.bus with completion := false } : BusController)) ∧
    ((bcWriteData b s).trace = s.trace ++ [Event.wrData b] ∧ (bcWriteData b s).bus = { s.bus with data := b }) ∧
    ((bcSetEnable s).trace = s.trace ++ [Event.setEn] ∧ (bcSetEnable s).bus = { s.bus with enabled := true }) ∧
    ((bcWriteDivider v s).trace = s.trace ++ [Event.wrDiv v] ∧
      (bcWriteDivider v s).bus = { s.bus with divider := v }) ∧
    ((bcStatus s).1 = s.bus.status ∧ (bcStatus s).2.trace = s.trace ++ [Event.rdStatus s.bus.status] ∧
      (bcStatus s).2.bus = s.bus) ∧
    ((bcDone s).2.trace = s.trace ++ [Event.pollDone (bcDone s).1] ∧
      ((bcDone s).1 = true → (bcDone s).2.bus.completion = true)) ∧
    ((bcStopReleased s).2.trace = s.trace ++ [Event.pollStop (!(bcStopReleased s).1)] ∧
      (bcStopReleased s).2.bus.stopBusy = !(bcStopReleased s).1)

/-! ### The Status Decoder -/

/-- 40_status_decoder R121: raw values alike in the top five bits classify alike. -/
def Obligations.ClassifyComparesTopFiveBits : Prop :=
  (∀ (cfg : Cfg) (a b : Byte) (s : List Byte) (f : Option Byte), a &&& 0xF8#8 = b &&& 0xF8#8 →
    classify cfg a s f = classify cfg b s f) ∧
  (∀ k : Fin 8, statusCode (0x18#8 + BitVec.ofNat 8 k.val) = 0x18#8)

/-- 40_status_decoder R123. -/
def Obligations.NeverSucceedOnUnmappedStatus : Prop :=
  (∀ (cfg : Cfg) (raw : Byte) (s : List Byte) (f : Option Byte),
    classify cfg raw s f = .none ↔ statusCode raw ∈ s) ∧
  (∀ cfg : Cfg, cfg.WellFormed → ∀ p q : Primitive,
    (∀ c ∈ q.success cfg, c ∉ p.success cfg → classify cfg c (p.success cfg) (p.failure cfg) = .unrecognized) ∧
    (∀ c, q.failure cfg = some c → p.failure cfg ≠ some c →
      classify cfg c (p.success cfg) (p.failure cfg) = .unrecognized) ∧
    (∀ raw, statusCode raw ∉ cfg.codes → classify cfg raw (p.success cfg) (p.failure cfg) = .unrecognized)) ∧
  (∀ cfg : Cfg, cfg.WellFormed →
    classify cfg cfg.stRstart (Primitive.start.success cfg) (Primitive.start.failure cfg) = .unrecognized) ∧
  (∀ (cfg : Cfg) (b : Byte), cfg.WellFormed → classify cfg cfg.stTxAddrNack ((Primitive.txdata b).success cfg)
    ((Primitive.txdata b).failure cfg) = .unrecognized) ∧
  outcomeOf .unrecognized = .protocolError

/-- 40_status_decoder R122, R125, 42_primitives R151: with a well-formed configuration each cause of a step has one
status code, whatever the order of the tests, and the decoder never answers Timeout. -/
def Obligations.ClassifyEachCauseHasItsCode : Prop :=
  ∀ (cfg : Cfg) (p : Primitive) (raw : Byte), cfg.WellFormed →
    (classify cfg raw (p.success cfg) (p.failure cfg) = .nack ↔ p.failure cfg = some (statusCode raw)) ∧
    (classify cfg raw (p.success cfg) (p.failure cfg) = .arbLost ↔ statusCode raw = cfg.stArbLost) ∧
    (classify cfg raw (p.success cfg) (p.failure cfg) = .busFault ↔ statusCode raw = cfg.stBusFault) ∧
    classify cfg raw (p.success cfg) (p.failure cfg) ≠ .timeout

/-! ### The Timeout Guard -/

/-- 41_timeout_guard R141, R142: both waits, for every `k` of the responder and every budget: the result, the polls
made, TMO afterwards, and nothing else written by the core. -/
def Obligations.WaitResult : Prop :=
  ∀ s : State,
    (match s.bus.pending.notReady with
      | some k =>
        if k < s.cfg.timeoutBudget.toNat then
          (waitDone s).1 = true ∧ (waitStop s).1 = true ∧
          (waitDone s).2.trace = s.trace ++ List.replicate k (Event.pollDone false) ++ [Event.pollDone true] ∧
          (waitStop s).2.trace = s.trace ++ List.replicate k (Event.pollStop true) ++ [Event.pollStop false] ∧
          (waitDone s).2.tmo.toNat = s.cfg.timeoutBudget.toNat - k ∧
          (waitStop s).2.tmo.toNat = s.cfg.timeoutBudget.toNat - k
        else
          (waitDone s).1 = false ∧ (waitStop s).1 = false ∧
          (waitDone s).2.trace = s.trace ++ List.replicate s.cfg.timeoutBudget.toNat (Event.pollDone false) ∧
          (waitStop s).2.trace = s.trace ++ List.replicate s.cfg.timeoutBudget.toNat (Event.pollStop true) ∧
          (waitDone s).2.tmo = 0 ∧ (waitStop s).2.tmo = 0
      | none =>
        (waitDone s).1 = false ∧ (waitStop s).1 = false ∧
        (waitDone s).2.trace = s.trace ++ List.replicate s.cfg.timeoutBudget.toNat (Event.pollDone false) ∧
        (waitStop s).2.trace = s.trace ++ List.replicate s.cfg.timeoutBudget.toNat (Event.pollStop true) ∧
        (waitDone s).2.tmo = 0 ∧ (waitStop s).2.tmo = 0) ∧
    ({ (waitDone s).2 with tmo := s.tmo, bus := s.bus, trace := s.trace, statLog := s.statLog } : State) = s ∧
    ({ (waitStop s).2 with tmo := s.tmo, bus := s.bus, trace := s.trace, statLog := s.statLog } : State) = s

/-- 41_timeout_guard R143: budget 0 and budget 1. -/
def Obligations.GuardBoundaries : Prop :=
  (∀ s : State, s.cfg.timeoutBudget = 0 →
    (waitDone s).1 = false ∧ (waitDone s).2.trace = s.trace ∧
    (waitStop s).1 = false ∧ (waitStop s).2.trace = s.trace ∧
    (∀ p : Primitive, p ≠ .stop → ∃ t, exec p.command s = .next t ∧ t.cause = .timeout ∧
      t.trace = s.trace ++ p.loads ++ [Event.trig p.action]) ∧
    (∃ t, exec .stop s = .next t ∧ t.stopUnconf = true)) ∧
  (∀ s : State, s.cfg.timeoutBudget = 1 →
    (s.bus.pending.notReady = some 0 →
      (waitDone s).1 = true ∧ (waitDone s).2.trace = s.trace ++ [Event.pollDone true] ∧
      (waitStop s).1 = true ∧ (waitStop s).2.trace = s.trace ++ [Event.pollStop false]) ∧
    (s.bus.pending.notReady ≠ some 0 →
      (waitDone s).1 = false ∧ (waitDone s).2.trace = s.trace ++ [Event.pollDone false] ∧
      (waitStop s).1 = false ∧ (waitStop s).2.trace = s.trace ++ [Event.pollStop true]))

/-- 41_timeout_guard R146: every command terminates, within its bound of polls. -/
def Obligations.PollsAreBounded : Prop :=
  (∀ (p : Primitive) (s : State), ∃ t new, exec p.command s = .next t ∧ t.trace = s.trace ++ new ∧
    pollCount new ≤ s.cfg.timeoutBudget.toNat) ∧
  (∀ (i : Instr) (s : State), isOperation i = true → ∃ t new, exec i s = .next t ∧ t.trace = s.trace ++ new ∧
    (triggers new).length ≤ 6 + i.fields.len.toNat ∧
    pollCount new ≤ (6 + i.fields.len.toNat) * s.cfg.timeoutBudget.toNat ∧
    pollCount new ≤ (6 + 255) * 65535) ∧
  (∀ s : State, ∃ t new, exec .init s = .next t ∧ t.trace = s.trace ++ new ∧ pollCount new = 0)

/-! ### The Transaction Primitives -/

/-- 42_primitives R153: START. -/
def Obligations.StartResult : Prop :=
  decode 0x20000000#32 = .command .start ∧ ∀ s : State, ∃ t c, exec .start s = .next t ∧
    c = (if inTime s .start then classify s.cfg (answer s .start).status [s.cfg.stStart] none else .timeout) ∧
    c ≠ .nack ∧ Completed c t ∧ t.phase = (if c = .none then .startIssued else s.phase) ∧
    t.lastStatus = (if inTime s .start then (answer s .start).status else s.lastStatus) ∧
    t.trace = s.trace ++ [Event.trig .start] ++ polls s .start ++
      (if inTime s .start then [Event.rdStatus (answer s .start).status] else []) ∧
    t.tmo.toNat + missed s .start = s.cfg.timeoutBudget.toNat ∧
    t.idx = 0 ∧ t.rxdata = s.rxdata ∧ t.stopUnconf = s.stopUnconf ∧ t.buf = s.buf ∧
    (s.cfg.WellFormed → inTime s .start = true →
      statusCode (answer s .start).status = s.cfg.stRstart → c = .unrecognized)

/-- 42_primitives R154: RSTART; and that its trace is that of START. -/
def Obligations.RstartResult : Prop :=
  decode 0x30000000#32 = .command .rstart ∧ ∀ s : State, ∃ t c, exec .rstart s = .next t ∧
    c = (if inTime s .rstart then classify s.cfg (answer s .rstart).status [s.cfg.stStart, s.cfg.stRstart] none
      else .timeout) ∧
    c ≠ .nack ∧ Completed c t ∧ t.phase = (if c = .none then .startIssued else s.phase) ∧
    t.lastStatus = (if inTime s .rstart then (answer s .rstart).status else s.lastStatus) ∧
    (∃ u, exec .start s = .next u ∧ t.trace = u.trace ∧ t.lastStatus = u.lastStatus) ∧
    t.tmo.toNat + missed s .rstart = s.cfg.timeoutBudget.toNat ∧
    t.idx = 0 ∧ t.rxdata = s.rxdata ∧ t.stopUnconf = s.stopUnconf ∧ t.buf = s.buf

/-- 42_primitives R155: ADDR, both directions. -/
def Obligations.AddrResult : Prop :=
  ∀ (s : State) (a : BitVec 7) (d : Dir), ∃ t c,
    decode (0x40000000#32 ||| (d.toBit.setWidth 32 <<< 24) ||| (a.setWidth 32 <<< 16)) = .command (.addr d a) ∧
    exec (.addr d a) s = .next t ∧
    c = (if inTime s (.addr a d) then
      (match d with
        | .write => classify s.cfg (answer s (.addr a d)).status [s.cfg.stTxAddrAck] (some s.cfg.stTxAddrNack)
        | .read => classify s.cfg (answer s (.addr a d)).status [s.cfg.stRxAddrAck] (some s.cfg.stRxAddrNack))
      else .timeout) ∧
    Completed c t ∧ t.phase = (if c = .none then .addressAcked else s.phase) ∧
    t.lastStatus = (if inTime s (.addr a d) then (answer s (.addr a d)).status else s.lastStatus) ∧
    t.trace = s.trace ++ [Event.wrData (addrByte a d), Event.trig .transmit] ++ polls s (.addr a d) ++
      (if inTime s (.addr a d) then [Event.rdStatus (answer s (.addr a d)).status] else []) ∧
    t.tmo.toNat + missed s (.addr a d) = s.cfg.timeoutBudget.toNat ∧
    t.idx = 0 ∧ t.rxdata = s.rxdata ∧ t.stopUnconf = s.stopUnconf ∧ t.buf = s.buf

/-- 42_primitives R155: "The classification does not depend on the address." With an answer scripted (log 2), two
addresses give the same cause, status and phase. -/
def Obligations.AddressDoesNotChangeClassification : Prop :=
  ∀ (s : State) (a b : BitVec 7) (d : Dir), s.script ≠ [] →
    ∃ t u, exec (.addr d a) s = .next t ∧ exec (.addr d b) s = .next u ∧
      t.cause = u.cause ∧ t.outcome = u.outcome ∧ t.lastStatus = u.lastStatus ∧ t.phase = u.phase

/-- 42_primitives R156: TXDATA. -/
def Obligations.TxdataResult : Prop :=
  ∀ (s : State) (b : Byte), ∃ t c,
    decode (0x50000000#32 ||| (b.setWidth 32 <<< 8)) = .command (.txdata b) ∧ exec (.txdata b) s = .next t ∧
    c = (if inTime s (.txdata b) then
      classify s.cfg (answer s (.txdata b)).status [s.cfg.stTxDataAck] (some s.cfg.stTxDataNack) else .timeout) ∧
    Completed c t ∧ t.phase = (if c = .none then .dataPhase else s.phase) ∧
    t.lastStatus = (if inTime s (.txdata b) then (answer s (.txdata b)).status else s.lastStatus) ∧
    t.trace = s.trace ++ [Event.wrData b, Event.trig .transmit] ++ polls s (.txdata b) ++
      (if inTime s (.txdata b) then [Event.rdStatus (answer s (.txdata b)).status] else []) ∧
    t.tmo.toNat + missed s (.txdata b) = s.cfg.timeoutBudget.toNat ∧
    t.idx = 0 ∧ t.rxdata = s.rxdata ∧ t.stopUnconf = s.stopUnconf ∧ t.buf = s.buf

/-- 42_primitives R157: RXACK. -/
def Obligations.RxackResult : Prop :=
  decode 0x60000000#32 = .command .rxack ∧ ∀ s : State, ∃ t c, exec .rxack s = .next t ∧
    c = (if inTime s .rxack then classify s.cfg (answer s .rxack).status [s.cfg.stRxDataAck] none else .timeout) ∧
    c ≠ .nack ∧ Completed c t ∧ t.phase = (if c = .none then .dataPhase else s.phase) ∧
    t.rxdata = (if c = .none then (answer s .rxack).data else s.rxdata) ∧
    t.lastStatus = (if inTime s .rxack then (answer s .rxack).status else s.lastStatus) ∧
    t.trace = s.trace ++ [Event.trig .rxAck] ++ polls s .rxack ++
      (if inTime s .rxack then [Event.rdStatus (answer s .rxack).status] else []) ++
      (if c = .none then [Event.rdData (answer s .rxack).data] else []) ∧
    t.tmo.toNat + missed s .rxack = s.cfg.timeoutBudget.toNat ∧
    t.idx = 0 ∧ t.stopUnconf = s.stopUnconf ∧ t.buf = s.buf

/-- 42_primitives R158: RXNACK. -/
def Obligations.RxnackResult : Prop :=
  decode 0x70000000#32 = .command .rxnack ∧ ∀ s : State, ∃ t c, exec .rxnack s = .next t ∧
    c = (if inTime s .rxnack then classify s.cfg (answer s .rxnack).status [s.cfg.stRxDataNack] none else .timeout) ∧
    c ≠ .nack ∧ Completed c t ∧ t.phase = (if c = .none then .dataPhase else s.phase) ∧
    t.rxdata = (if c = .none then (answer s .rxnack).data else s.rxdata) ∧
    t.lastStatus = (if inTime s .rxnack then (answer s .rxnack).status else s.lastStatus) ∧
    t.trace = s.trace ++ [Event.trig .rxNack] ++ polls s .rxnack ++
      (if inTime s .rxnack then [Event.rdStatus (answer s .rxnack).status] else []) ++
      (if c = .none then [Event.rdData (answer s .rxnack).data] else []) ∧
    t.tmo.toNat + missed s .rxnack = s.cfg.timeoutBudget.toNat ∧
    t.idx = 0 ∧ t.stopUnconf = s.stopUnconf ∧ t.buf = s.buf ∧
    (s.cfg.WellFormed → inTime s .rxnack = true →
      statusCode (answer s .rxnack).status = s.cfg.stRxDataAck → c = .unrecognized)

/-- 42_primitives R159: STOP always completes with None; the STAT words read at its polls (the model's own record, log
7) show PHASE = StopIssued. -/
def Obligations.StopResult : Prop :=
  decode 0x80000000#32 = .command .stop ∧ ∀ s : State, ∃ t, exec .stop s = .next t ∧ Completed .none t ∧
    t.phase = .idle ∧ t.stopUnconf = !inTime s .stop ∧
    t.trace = s.trace ++ [Event.trig .stop] ++ polls s .stop ∧
    t.tmo.toNat + missed s .stop = s.cfg.timeoutBudget.toNat ∧
    (∀ w ∈ t.statLog.drop (s.statLog.length + 1), w.extractLsb' 9 3 = 4#3) ∧
    t.lastStatus = s.lastStatus ∧ t.rxdata = s.rxdata ∧ t.buf = s.buf ∧ t.idx = 0

/-- 42_primitives R152: the phase a primitive command leaves depends on the primitive and its cause only; and no
command reads PHASE: from two states that differ in PHASE alone, the same events and the same results. -/
def Obligations.PhaseIsNotRead : Prop :=
  (∀ (p : Primitive) (s : State), ∃ t, exec p.command s = .next t ∧
    t.phase = (if t.cause = .none then p.phase else s.phase)) ∧
  (∀ (i : Instr) (s : State) (q : Phase), ∃ t u, exec i s = .next t ∧ exec i { s with phase := q } = .next u ∧
    u.trace = t.trace ∧ u.cause = t.cause ∧ u.outcome = t.outcome ∧ u.stopUnconf = t.stopUnconf ∧
    u.lastStatus = t.lastStatus ∧ u.rxdata = t.rxdata ∧ u.idx = t.idx ∧ (∀ j, readBuf u j = readBuf t j))

/-- 42_primitives R153 to R156 ("Registers written"), R160: the frame of START, RSTART, ADDR and TXDATA. PHASE,
LAST_STATUS, TMO, the results of completion and the latches may change; one answer of the model's script is used up
(log 2). -/
def Obligations.StartAndTransmitFrame : Prop :=
  ∀ (i : Instr) (s : State),
    (i = .start ∨ i = .rstart ∨ (∃ d a, i = .addr d a) ∨ (∃ b, i = .txdata b)) →
    ∃ t, exec i s = .next t ∧ CommandFrame s t ∧ t.script = s.script.tail ∧
      t.rxdata = s.rxdata ∧ t.stopUnconf = s.stopUnconf ∧
      t.bus.divider = s.bus.divider ∧ t.bus.enabled = s.bus.enabled ∧
      (t.cause ≠ .none → t.phase = s.phase) ∧ (t.cause = .timeout → t.lastStatus = s.lastStatus) ∧
      (∀ j, readBuf t j = readBuf s j) ∧ t.op = i.fields.op ∧ t.dir = Dir.ofBit i.fields.dir ∧
      t.addr7 = i.fields.addr7 ∧ t.byte = i.fields.byte ∧ t.len = i.fields.len

/-- 42_primitives R157, R158 ("Registers written"): the frame of RXACK and RXNACK. -/
def Obligations.ReceiveFrame : Prop :=
  ∀ (i : Instr) (s : State), (i = .rxack ∨ i = .rxnack) →
    ∃ t, exec i s = .next t ∧ CommandFrame s t ∧ t.script = s.script.tail ∧
      t.stopUnconf = s.stopUnconf ∧
      t.bus.divider = s.bus.divider ∧ t.bus.enabled = s.bus.enabled ∧
      (t.cause ≠ .none → t.phase = s.phase ∧ t.rxdata = s.rxdata) ∧
      (t.cause = .timeout → t.lastStatus = s.lastStatus) ∧ (∀ j, readBuf t j = readBuf s j) ∧
      t.op = i.fields.op ∧ t.dir = .write ∧ t.addr7 = 0 ∧ t.byte = 0 ∧ t.len = 0

/-- 42_primitives R159 ("Registers written"): the frame of STOP. -/
def Obligations.StopFrame : Prop :=
  ∀ s : State, ∃ t, exec .stop s = .next t ∧ CommandFrame s t ∧ t.script = s.script.tail ∧
    t.lastStatus = s.lastStatus ∧
    t.rxdata = s.rxdata ∧ t.bus.divider = s.bus.divider ∧ t.bus.enabled = s.bus.enabled ∧
    (∀ j, readBuf t j = readBuf s j) ∧ t.op = 0x8 ∧ t.dir = .write ∧ t.addr7 = 0 ∧ t.byte = 0 ∧ t.len = 0

/-! ### Initialisation -/

/-- 43_orchestrator R187: INIT. -/
def Obligations.InitResult : Prop :=
  decode 0x10000000#32 = .command .init ∧ ∀ s : State, ∃ t, exec .init s = .next t ∧ Completed .none t ∧
    t.trace = s.trace ++ [Event.wrDiv (divider s.cfg.fRef s.cfg.bitRate s.cfg.divMax), Event.setEn] ∧
    t.bus.divider = divider s.cfg.fRef s.cfg.bitRate s.cfg.divMax ∧ t.bus.enabled = true ∧
    t.phase = s.phase ∧ t.stopUnconf = s.stopUnconf ∧ t.lastStatus = s.lastStatus ∧ t.rxdata = s.rxdata

/-- 43_orchestrator R187 ("Registers written"): the frame of INIT. Of the bus controller only the divider and the
enable flag change. -/
def Obligations.InitFrame : Prop :=
  ∀ s : State, ∃ t, exec .init s = .next t ∧ CommandFrame s t ∧ t.phase = s.phase ∧ t.stopUnconf = s.stopUnconf ∧
    t.lastStatus = s.lastStatus ∧ t.rxdata = s.rxdata ∧ t.tmo = s.tmo ∧ t.script = s.script ∧ t.idx = 0 ∧
    ({ t.bus with divider := s.bus.divider, enabled := s.bus.enabled } : BusController) = s.bus ∧
    (∀ j, readBuf t j = readBuf s j) ∧
    t.op = 0x1 ∧ t.dir = .write ∧ t.addr7 = 0 ∧ t.byte = 0 ∧ t.len = 0

/-- 43_orchestrator R181: the divider. -/
def Obligations.DividerFormula : Prop :=
  (∀ fRef bitRate divMax : Nat, divider fRef bitRate divMax ≤ divMax ∧
    (bitRate = 0 → divider fRef bitRate divMax = divMax) ∧
    (bitRate ≠ 0 → fRef / bitRate < 16 → divider fRef bitRate divMax = 0) ∧
    (bitRate ≠ 0 → 16 ≤ fRef / bitRate →
      divider fRef bitRate divMax = min ((fRef / bitRate - 16) / 2) divMax)) ∧
  divider 16000000 100000 255 = 72 ∧ divider 16000000 400000 255 = 12 ∧ divider 16000000 300000 255 = 18 ∧
  divider 16000000 1000 255 = 255 ∧ divider 16000000 2000000 255 = 0 ∧ divider 16000000 0 255 = 255

/-! ### The Transfer Orchestrator -/

/-- 43_orchestrator R183 to R186 ("Encoding"): the words of the four operations, for all their operands. -/
def Obligations.OperationWords : Prop :=
  ∀ (a : BitVec 7) (b n : Byte),
    decode (0x90000000#32 ||| (a.setWidth 32 <<< 16) ||| n.setWidth 32) = .command (.bwrite a n) ∧
    decode (0xA0000000#32 ||| (a.setWidth 32 <<< 16) ||| n.setWidth 32) = .command (.bread a n) ∧
    decode (0xB0000000#32 ||| (a.setWidth 32 <<< 16) ||| (b.setWidth 32 <<< 8) ||| n.setWidth 32) =
      .command (.wreg a b n) ∧
    decode (0xC0000000#32 ||| (a.setWidth 32 <<< 16) ||| (b.setWidth 32 <<< 8) ||| n.setWidth 32) =
      .command (.rreg a b n)

/-- 43_orchestrator R182 to R186, 60_exceptions R214, R215: each operation plays its list of steps until the first
failure, then one stop, and completes with the first failure; IDX counts the data bytes completed. -/
def Obligations.OperationPlaysItsSteps : Prop :=
  ∀ (i : Instr) (s : State), isOperation i = true →
    ∃ t p, exec i s = .next t ∧ p = play s (bodyMoves s i) ∧ Completed p.cause t ∧
      t.trace = (playStop s.cfg p).trace ∧ t.script = (playStop s.cfg p).script ∧ t.lastStatus = p.lastStatus ∧
      t.idx.toNat = p.counted ∧ t.phase = .idle ∧
      t.stopUnconf =
        !timely s.cfg.timeoutBudget.toNat (p.script.headD (Config.responder (p.trace ++ [Event.trig .stop])))

/-- 43_orchestrator R184, R186, R189: BREAD and RREG store the bytes received in order from `BUF[0]` on, and leave
every byte at an index of IDX or above as it was. -/
def Obligations.ReadOperationsStoreReceivedBytes : Prop :=
  ∀ (i : Instr) (s : State), ((∃ a n, i = .bread a n) ∨ (∃ a b n, i = .rreg a b n)) →
    ∃ t, exec i s = .next t ∧ t.idx.toNat = (play s (bodyMoves s i)).received.length ∧
      (∀ j : Byte, readBuf t j = ((play s (bodyMoves s i)).received[j.toNat]?).getD (readBuf s j)) ∧
      t.rxdata = ((play s (bodyMoves s i)).received.getLast?).getD s.rxdata

/-- 43_orchestrator R183, R185, 10_state R23 ("Registers written"): the frame of BWRITE and WREG: no byte of BUF
changes, nor does RXDATA. -/
def Obligations.WriteOperationsFrame : Prop :=
  ∀ (i : Instr) (s : State), ((∃ a n, i = .bwrite a n) ∨ (∃ a b n, i = .wreg a b n)) →
    ∃ t, exec i s = .next t ∧ CommandFrame s t ∧ t.rxdata = s.rxdata ∧ t.bus.divider = s.bus.divider ∧
      t.bus.enabled = s.bus.enabled ∧ (∀ j, readBuf t j = readBuf s j) ∧
      t.op = i.fields.op ∧ t.dir = .write ∧ t.addr7 = i.fields.addr7 ∧ t.byte = i.fields.byte ∧ t.len = i.fields.len

/-- 43_orchestrator R184, R186, 10_state R23 ("Registers written"): the frame of BREAD and RREG: bytes of BUF at an
index of IDX or above never change, IDX <= LEN, and RXDATA changes only if a byte was completed. -/
def Obligations.ReadOperationsFrame : Prop :=
  ∀ (i : Instr) (s : State), ((∃ a n, i = .bread a n) ∨ (∃ a b n, i = .rreg a b n)) →
    ∃ t, exec i s = .next t ∧ CommandFrame s t ∧ t.bus.divider = s.bus.divider ∧ t.bus.enabled = s.bus.enabled ∧
      (∀ j, t.idx ≤ j → readBuf t j = readBuf s j) ∧ t.idx ≤ t.len ∧ (t.idx = 0 → t.rxdata = s.rxdata) ∧
      t.op = i.fields.op ∧ t.dir = .write ∧ t.addr7 = i.fields.addr7 ∧ t.byte = i.fields.byte ∧ t.len = i.fields.len

/-- 43_orchestrator R188, R182: the counts of triggers; "Every orchestrator operation issues the stop primitive on
every exit path", exactly once, and nothing is triggered after it. -/
def Obligations.TriggerCounts : Prop :=
  ∀ (i : Instr) (s : State), isOperation i = true →
    ∃ t new p, exec i s = .next t ∧ t.trace = s.trace ++ new ∧ p = play s (bodyMoves s i) ∧
      (triggers new).length = p.executed + 1 ∧ (triggers new).getLast? = some .stop ∧
      (triggers new).count .stop = 1 ∧
      (triggers new).count .rxNack ≤ 1 ∧
      ((triggers new).count .rxNack = 1 → ((triggers new).filter receives).getLast? = some .rxNack) ∧
      ((triggers new).filter receives).length ≤ i.fields.len.toNat ∧
      (triggers new).count .rxAck = min ((triggers new).filter receives).length (i.fields.len.toNat - 1) ∧
      t.outcome = outcomeOf p.cause ∧
      (p.cause = .none → p.executed = (bodyMoves s i).length ∧ t.idx = i.fields.len) ∧
      (((∃ a n, i = .bread a n) ∨ (∃ a b n, i = .rreg a b n)) → p.cause = .none → 1 ≤ i.fields.len.toNat →
        (triggers new).count .rxAck = i.fields.len.toNat - 1 ∧ (triggers new).count .rxNack = 1) ∧
      (∀ j, j < (bodyMoves s i).length → (play s ((bodyMoves s i).take j)).cause = .none →
        (play s ((bodyMoves s i).take (j + 1))).cause ≠ .none →
        p.executed = j + 1 ∧ (triggers new).length = j + 2 ∧
          p.cause = (play s ((bodyMoves s i).take (j + 1))).cause)

/-- 43_orchestrator R191: an operation and the same steps issued as primitive commands, then STOP: for a responder
that answers the n-th trigger alike in both runs (a script long enough, log 2), the same events but for the BUF accesses,
and the same PHASE, STOP_UNCONF, LAST_STATUS and RXDATA. -/
def Obligations.OperationEqualsItsPrimitiveCommands : Prop :=
  ∀ (i : Instr) (s : State), isOperation i = true → (bodyMoves s i).length + 1 ≤ s.script.length →
    ∃ t u, exec i s = .next t ∧
      runCommands (((bodyMoves s i).take (play s (bodyMoves s i)).executed).map (fun m => m.primitive.command) ++
        [.stop]) s = some u ∧
      busEvents t.trace = busEvents u.trace ∧ t.phase = u.phase ∧ t.stopUnconf = u.stopUnconf ∧
      t.lastStatus = u.lastStatus ∧ t.rxdata = u.rxdata ∧ t.script = u.script ∧ u.idx = 0 ∧ u.buf = s.buf ∧
      u.cause = .none

/-! ### Rules about every command -/

/-- 43_orchestrator R180, 10_state R46. -/
def Obligations.RestAfterCommand : Prop :=
  ∀ (i : Instr) (s : State), ∃ t, exec i s = .next t ∧ Completed t.cause t ∧ ¬ (t.busy = true ∧ t.done = true) ∧
    t.idx ≤ t.len ∧ t.phase ∈ [.idle, .startIssued, .addressAcked, .dataPhase, .stopIssued] ∧
    (isOperation i = true ∨ i = .stop → t.phase = .idle)

/-- 20_memory R70, 42_primitives R150, 40_status_decoder R125: a status is read only directly after a ready poll, a
data byte only directly after a status read; so nothing is read after a timeout. -/
def Obligations.StatusReadOnlyAfterReadyPoll : Prop :=
  ∀ (i : Instr) (s : State) (e : Event), ∃ t new, exec i s = .next t ∧ t.trace = s.trace ++ new ∧
    ordered e new = true

/-- 10_state R31: STOP_UNCONF is written by every command that executes STOP and by no other, and is 0 exactly when
the release was observed, the last event of the command. -/
def Obligations.StopUnconfIsTheStopsVerdict : Prop :=
  ∀ (i : Instr) (s : State), ∃ t, exec i s = .next t ∧ t.outcome = outcomeOf t.cause ∧
    (if isOperation i = true ∨ i = .stop then (t.stopUnconf = false ↔ t.trace.getLast? = some (Event.pollStop false))
      else t.stopUnconf = s.stopUnconf)

/-- 10_state R33: LAST_STATUS is the raw value of the most recent status read. -/
def Obligations.LastStatusIsTheLastRead : Prop :=
  ∀ (i : Instr) (s : State), ∃ t new, exec i s = .next t ∧ t.trace = s.trace ++ new ∧
    t.lastStatus = ((statusReads new).getLast?).getD s.lastStatus

/-- 10_state R34, 42_primitives R157, R158: RXDATA is the byte of the most recent data read, and a receive command
reads the data register exactly when its cause is None. -/
def Obligations.RxdataIsTheLastRead : Prop :=
  ∀ (i : Instr) (s : State), ∃ t new, exec i s = .next t ∧ t.trace = s.trace ++ new ∧
    t.rxdata = ((dataReads new).getLast?).getD s.rxdata ∧
    (i = .rxack ∨ i = .rxnack → ((dataReads new).length = if t.cause = .none then 1 else 0))

/-! ### BUF -/

/-- 20_memory R61: a buffer read returns the byte and records it; a write sets it and no other byte. -/
def Obligations.BufferPrimitives : Prop :=
  ∀ (i v : Byte) (s : State),
    (memRead i s).1 = readBuf s i ∧ (memRead i s).2.trace = s.trace ++ [Event.bufRd i (readBuf s i)] ∧
    (∀ j, readBuf (memRead i s).2 j = readBuf s j) ∧ readBuf (memWrite i v s) i = v ∧
    (memWrite i v s).trace = s.trace ++ [Event.bufWr i v] ∧ (∀ j, j ≠ i → readBuf (memWrite i v s) j = readBuf s j)

/-- 10_state R23, 20_memory R61: a command reads BUF only in BWRITE and WREG and writes it only in BREAD and RREG,
always below LEN; it reads what the host left there, and what it wrote below IDX stays. -/
def Obligations.BufferAccesses : Prop :=
  ∀ (i : Instr) (s : State), ∃ t new, exec i s = .next t ∧ t.trace = s.trace ++ new ∧
    (∀ j b, Event.bufRd j b ∈ new →
      ((∃ a n, i = .bwrite a n) ∨ (∃ a r n, i = .wreg a r n)) ∧ j < t.len ∧ b = readBuf s j) ∧
    (∀ j b, Event.bufWr j b ∈ new →
      ((∃ a n, i = .bread a n) ∨ (∃ a r n, i = .rreg a r n)) ∧ j < t.idx ∧ j < t.len ∧ b = readBuf t j)

/-- In the canonical form, which is the model's (log 5; 10_state R23), buffers that hold the same at every address
are the same data. -/
def Obligations.BufferCanonical : Prop :=
  ∀ m n : Memory, Memory.wf m → Memory.wf n → (∀ a, Memory.lookup m a = Memory.lookup n a) → m = n

end
end

