-- ==== Sys2Proof/Laws/Decode.lean ====
section
/-! SUPPORT. The field view of a word and the word of its fields undo each other. -/

namespace Sys2Proof

/-- The word of given fields, bit by bit (the width 32 is the sum of the fields' widths). -/
theorem Cmd32.getLsbD_toWord (f : Cmd32) (i : Nat) :
    f.toWord.getLsbD i = (f.op ++ f.z1 ++ f.dir ++ f.z2 ++ f.addr7 ++ f.byte ++ f.len).getLsbD i := rfl

theorem Cmd32.ofWord_toWord (f : Cmd32) : Cmd32.ofWord f.toWord = f := by
  have h := f.getLsbD_toWord
  obtain ⟨op, z1, dir, z2, addr7, byte, len⟩ := f
  simp only [BitVec.getLsbD_append] at h
  simp only [Cmd32.ofWord, Cmd32.mk.injEq]
  refine ⟨?_, ?_, ?_, ?_, ?_, ?_, ?_⟩ <;>
    · apply BitVec.eq_of_getLsbD_eq
      intro i hi
      interval_cases i <;> simp [-BitVec.getLsbD_eq_getElem, h]

theorem Cmd32.toWord_ofWord (w : Word) : (Cmd32.ofWord w).toWord = w := by
  apply BitVec.eq_of_getLsbD_eq
  intro i hi
  rw [Cmd32.getLsbD_toWord]
  simp only [BitVec.getLsbD_append, Cmd32.ofWord]
  interval_cases i <;> simp

@[simp] theorem Dir.ofBit_toBit (d : Dir) : Dir.ofBit d.toBit = d := by
  cases d <;> decide

theorem Dir.toBit_ofBit (b : BitVec 1) : (Dir.ofBit b).toBit = b := by
  revert b; decide

@[simp] theorem ofWord_encode (i : Instr) : Cmd32.ofWord (encode i) = i.fields :=
  Cmd32.ofWord_toWord _

end Sys2Proof
end

