-- ==== Sys2Proof/Laws/State.lean ====
section
/-! SUPPORT. One lemma for each field of State and each named update, true by rfl, so that no later proof unfolds a
record update. -/

namespace Sys2Proof.Machine

/-! ### emit -/

@[simp] theorem emit_cfg (e : Event) (s : State) : (emit e s).cfg = s.cfg := rfl
@[simp] theorem emit_cmd (e : Event) (s : State) : (emit e s).cmd = s.cmd := rfl
@[simp] theorem emit_cmdValid (e : Event) (s : State) : (emit e s).cmdValid = s.cmdValid := rfl
@[simp] theorem emit_op (e : Event) (s : State) : (emit e s).op = s.op := rfl
@[simp] theorem emit_dir (e : Event) (s : State) : (emit e s).dir = s.dir := rfl
@[simp] theorem emit_addr7 (e : Event) (s : State) : (emit e s).addr7 = s.addr7 := rfl
@[simp] theorem emit_byte (e : Event) (s : State) : (emit e s).byte = s.byte := rfl
@[simp] theorem emit_len (e : Event) (s : State) : (emit e s).len = s.len := rfl
@[simp] theorem emit_buf (e : Event) (s : State) : (emit e s).buf = s.buf := rfl
@[simp] theorem emit_busy (e : Event) (s : State) : (emit e s).busy = s.busy := rfl
@[simp] theorem emit_done (e : Event) (s : State) : (emit e s).done = s.done := rfl
@[simp] theorem emit_phase (e : Event) (s : State) : (emit e s).phase = s.phase := rfl
@[simp] theorem emit_seq (e : Event) (s : State) : (emit e s).seq = s.seq := rfl
@[simp] theorem emit_idx (e : Event) (s : State) : (emit e s).idx = s.idx := rfl
@[simp] theorem emit_tmo (e : Event) (s : State) : (emit e s).tmo = s.tmo := rfl
@[simp] theorem emit_outcome (e : Event) (s : State) : (emit e s).outcome = s.outcome := rfl
@[simp] theorem emit_cause (e : Event) (s : State) : (emit e s).cause = s.cause := rfl
@[simp] theorem emit_stopUnconf (e : Event) (s : State) : (emit e s).stopUnconf = s.stopUnconf := rfl
@[simp] theorem emit_illegal (e : Event) (s : State) : (emit e s).illegal = s.illegal := rfl
@[simp] theorem emit_lastStatus (e : Event) (s : State) : (emit e s).lastStatus = s.lastStatus := rfl
@[simp] theorem emit_rxdata (e : Event) (s : State) : (emit e s).rxdata = s.rxdata := rfl
@[simp] theorem emit_bus (e : Event) (s : State) : (emit e s).bus = s.bus := rfl
@[simp] theorem emit_host (e : Event) (s : State) : (emit e s).host = s.host := rfl
@[simp] theorem emit_script (e : Event) (s : State) : (emit e s).script = s.script := rfl
@[simp] theorem emit_trace (e : Event) (s : State) : (emit e s).trace = s.trace ++ [e] := rfl
@[simp] theorem emit_statLog (e : Event) (s : State) : (emit e s).statLog = s.statLog ++ [stat s] := rfl
@[simp] theorem emit_resets (e : Event) (s : State) : (emit e s).resets = s.resets := rfl

/-! ### setBus -/

@[simp] theorem setBus_cfg (b : BusController) (s : State) : (setBus b s).cfg = s.cfg := rfl
@[simp] theorem setBus_cmd (b : BusController) (s : State) : (setBus b s).cmd = s.cmd := rfl
@[simp] theorem setBus_cmdValid (b : BusController) (s : State) : (setBus b s).cmdValid = s.cmdValid := rfl
@[simp] theorem setBus_op (b : BusController) (s : State) : (setBus b s).op = s.op := rfl
@[simp] theorem setBus_dir (b : BusController) (s : State) : (setBus b s).dir = s.dir := rfl
@[simp] theorem setBus_addr7 (b : BusController) (s : State) : (setBus b s).addr7 = s.addr7 := rfl
@[simp] theorem setBus_byte (b : BusController) (s : State) : (setBus b s).byte = s.byte := rfl
@[simp] theorem setBus_len (b : BusController) (s : State) : (setBus b s).len = s.len := rfl
@[simp] theorem setBus_buf (b : BusController) (s : State) : (setBus b s).buf = s.buf := rfl
@[simp] theorem setBus_busy (b : BusController) (s : State) : (setBus b s).busy = s.busy := rfl
@[simp] theorem setBus_done (b : BusController) (s : State) : (setBus b s).done = s.done := rfl
@[simp] theorem setBus_phase (b : BusController) (s : State) : (setBus b s).phase = s.phase := rfl
@[simp] theorem setBus_seq (b : BusController) (s : State) : (setBus b s).seq = s.seq := rfl
@[simp] theorem setBus_idx (b : BusController) (s : State) : (setBus b s).idx = s.idx := rfl
@[simp] theorem setBus_tmo (b : BusController) (s : State) : (setBus b s).tmo = s.tmo := rfl
@[simp] theorem setBus_outcome (b : BusController) (s : State) : (setBus b s).outcome = s.outcome := rfl
@[simp] theorem setBus_cause (b : BusController) (s : State) : (setBus b s).cause = s.cause := rfl
@[simp] theorem setBus_stopUnconf (b : BusController) (s : State) : (setBus b s).stopUnconf = s.stopUnconf := rfl
@[simp] theorem setBus_illegal (b : BusController) (s : State) : (setBus b s).illegal = s.illegal := rfl
@[simp] theorem setBus_lastStatus (b : BusController) (s : State) : (setBus b s).lastStatus = s.lastStatus := rfl
@[simp] theorem setBus_rxdata (b : BusController) (s : State) : (setBus b s).rxdata = s.rxdata := rfl
@[simp] theorem setBus_bus (b : BusController) (s : State) : (setBus b s).bus = b := rfl
@[simp] theorem setBus_host (b : BusController) (s : State) : (setBus b s).host = s.host := rfl
@[simp] theorem setBus_script (b : BusController) (s : State) : (setBus b s).script = s.script := rfl
@[simp] theorem setBus_trace (b : BusController) (s : State) : (setBus b s).trace = s.trace := rfl
@[simp] theorem setBus_statLog (b : BusController) (s : State) : (setBus b s).statLog = s.statLog := rfl
@[simp] theorem setBus_resets (b : BusController) (s : State) : (setBus b s).resets = s.resets := rfl

/-! ### setTmo -/

@[simp] theorem setTmo_cfg (v : BitVec 16) (s : State) : (setTmo v s).cfg = s.cfg := rfl
@[simp] theorem setTmo_cmd (v : BitVec 16) (s : State) : (setTmo v s).cmd = s.cmd := rfl
@[simp] theorem setTmo_cmdValid (v : BitVec 16) (s : State) : (setTmo v s).cmdValid = s.cmdValid := rfl
@[simp] theorem setTmo_op (v : BitVec 16) (s : State) : (setTmo v s).op = s.op := rfl
@[simp] theorem setTmo_dir (v : BitVec 16) (s : State) : (setTmo v s).dir = s.dir := rfl
@[simp] theorem setTmo_addr7 (v : BitVec 16) (s : State) : (setTmo v s).addr7 = s.addr7 := rfl
@[simp] theorem setTmo_byte (v : BitVec 16) (s : State) : (setTmo v s).byte = s.byte := rfl
@[simp] theorem setTmo_len (v : BitVec 16) (s : State) : (setTmo v s).len = s.len := rfl
@[simp] theorem setTmo_buf (v : BitVec 16) (s : State) : (setTmo v s).buf = s.buf := rfl
@[simp] theorem setTmo_busy (v : BitVec 16) (s : State) : (setTmo v s).busy = s.busy := rfl
@[simp] theorem setTmo_done (v : BitVec 16) (s : State) : (setTmo v s).done = s.done := rfl
@[simp] theorem setTmo_phase (v : BitVec 16) (s : State) : (setTmo v s).phase = s.phase := rfl
@[simp] theorem setTmo_seq (v : BitVec 16) (s : State) : (setTmo v s).seq = s.seq := rfl
@[simp] theorem setTmo_idx (v : BitVec 16) (s : State) : (setTmo v s).idx = s.idx := rfl
@[simp] theorem setTmo_tmo (v : BitVec 16) (s : State) : (setTmo v s).tmo = v := rfl
@[simp] theorem setTmo_outcome (v : BitVec 16) (s : State) : (setTmo v s).outcome = s.outcome := rfl
@[simp] theorem setTmo_cause (v : BitVec 16) (s : State) : (setTmo v s).cause = s.cause := rfl
@[simp] theorem setTmo_stopUnconf (v : BitVec 16) (s : State) : (setTmo v s).stopUnconf = s.stopUnconf := rfl
@[simp] theorem setTmo_illegal (v : BitVec 16) (s : State) : (setTmo v s).illegal = s.illegal := rfl
@[simp] theorem setTmo_lastStatus (v : BitVec 16) (s : State) : (setTmo v s).lastStatus = s.lastStatus := rfl
@[simp] theorem setTmo_rxdata (v : BitVec 16) (s : State) : (setTmo v s).rxdata = s.rxdata := rfl
@[simp] theorem setTmo_bus (v : BitVec 16) (s : State) : (setTmo v s).bus = s.bus := rfl
@[simp] theorem setTmo_host (v : BitVec 16) (s : State) : (setTmo v s).host = s.host := rfl
@[simp] theorem setTmo_script (v : BitVec 16) (s : State) : (setTmo v s).script = s.script := rfl
@[simp] theorem setTmo_trace (v : BitVec 16) (s : State) : (setTmo v s).trace = s.trace := rfl
@[simp] theorem setTmo_statLog (v : BitVec 16) (s : State) : (setTmo v s).statLog = s.statLog := rfl
@[simp] theorem setTmo_resets (v : BitVec 16) (s : State) : (setTmo v s).resets = s.resets := rfl

/-! ### setPhase -/

@[simp] theorem setPhase_cfg (p : Phase) (s : State) : (setPhase p s).cfg = s.cfg := rfl
@[simp] theorem setPhase_cmd (p : Phase) (s : State) : (setPhase p s).cmd = s.cmd := rfl
@[simp] theorem setPhase_cmdValid (p : Phase) (s : State) : (setPhase p s).cmdValid = s.cmdValid := rfl
@[simp] theorem setPhase_op (p : Phase) (s : State) : (setPhase p s).op = s.op := rfl
@[simp] theorem setPhase_dir (p : Phase) (s : State) : (setPhase p s).dir = s.dir := rfl
@[simp] theorem setPhase_addr7 (p : Phase) (s : State) : (setPhase p s).addr7 = s.addr7 := rfl
@[simp] theorem setPhase_byte (p : Phase) (s : State) : (setPhase p s).byte = s.byte := rfl
@[simp] theorem setPhase_len (p : Phase) (s : State) : (setPhase p s).len = s.len := rfl
@[simp] theorem setPhase_buf (p : Phase) (s : State) : (setPhase p s).buf = s.buf := rfl
@[simp] theorem setPhase_busy (p : Phase) (s : State) : (setPhase p s).busy = s.busy := rfl
@[simp] theorem setPhase_done (p : Phase) (s : State) : (setPhase p s).done = s.done := rfl
@[simp] theorem setPhase_phase (p : Phase) (s : State) : (setPhase p s).phase = p := rfl
@[simp] theorem setPhase_seq (p : Phase) (s : State) : (setPhase p s).seq = s.seq := rfl
@[simp] theorem setPhase_idx (p : Phase) (s : State) : (setPhase p s).idx = s.idx := rfl
@[simp] theorem setPhase_tmo (p : Phase) (s : State) : (setPhase p s).tmo = s.tmo := rfl
@[simp] theorem setPhase_outcome (p : Phase) (s : State) : (setPhase p s).outcome = s.outcome := rfl
@[simp] theorem setPhase_cause (p : Phase) (s : State) : (setPhase p s).cause = s.cause := rfl
@[simp] theorem setPhase_stopUnconf (p : Phase) (s : State) : (setPhase p s).stopUnconf = s.stopUnconf := rfl
@[simp] theorem setPhase_illegal (p : Phase) (s : State) : (setPhase p s).illegal = s.illegal := rfl
@[simp] theorem setPhase_lastStatus (p : Phase) (s : State) : (setPhase p s).lastStatus = s.lastStatus := rfl
@[simp] theorem setPhase_rxdata (p : Phase) (s : State) : (setPhase p s).rxdata = s.rxdata := rfl
@[simp] theorem setPhase_bus (p : Phase) (s : State) : (setPhase p s).bus = s.bus := rfl
@[simp] theorem setPhase_host (p : Phase) (s : State) : (setPhase p s).host = s.host := rfl
@[simp] theorem setPhase_script (p : Phase) (s : State) : (setPhase p s).script = s.script := rfl
@[simp] theorem setPhase_trace (p : Phase) (s : State) : (setPhase p s).trace = s.trace := rfl
@[simp] theorem setPhase_statLog (p : Phase) (s : State) : (setPhase p s).statLog = s.statLog := rfl
@[simp] theorem setPhase_resets (p : Phase) (s : State) : (setPhase p s).resets = s.resets := rfl

/-! ### setSeq -/

@[simp] theorem setSeq_cfg (q : Seq) (s : State) : (setSeq q s).cfg = s.cfg := rfl
@[simp] theorem setSeq_cmd (q : Seq) (s : State) : (setSeq q s).cmd = s.cmd := rfl
@[simp] theorem setSeq_cmdValid (q : Seq) (s : State) : (setSeq q s).cmdValid = s.cmdValid := rfl
@[simp] theorem setSeq_op (q : Seq) (s : State) : (setSeq q s).op = s.op := rfl
@[simp] theorem setSeq_dir (q : Seq) (s : State) : (setSeq q s).dir = s.dir := rfl
@[simp] theorem setSeq_addr7 (q : Seq) (s : State) : (setSeq q s).addr7 = s.addr7 := rfl
@[simp] theorem setSeq_byte (q : Seq) (s : State) : (setSeq q s).byte = s.byte := rfl
@[simp] theorem setSeq_len (q : Seq) (s : State) : (setSeq q s).len = s.len := rfl
@[simp] theorem setSeq_buf (q : Seq) (s : State) : (setSeq q s).buf = s.buf := rfl
@[simp] theorem setSeq_busy (q : Seq) (s : State) : (setSeq q s).busy = s.busy := rfl
@[simp] theorem setSeq_done (q : Seq) (s : State) : (setSeq q s).done = s.done := rfl
@[simp] theorem setSeq_phase (q : Seq) (s : State) : (setSeq q s).phase = s.phase := rfl
@[simp] theorem setSeq_seq (q : Seq) (s : State) : (setSeq q s).seq = q := rfl
@[simp] theorem setSeq_idx (q : Seq) (s : State) : (setSeq q s).idx = s.idx := rfl
@[simp] theorem setSeq_tmo (q : Seq) (s : State) : (setSeq q s).tmo = s.tmo := rfl
@[simp] theorem setSeq_outcome (q : Seq) (s : State) : (setSeq q s).outcome = s.outcome := rfl
@[simp] theorem setSeq_cause (q : Seq) (s : State) : (setSeq q s).cause = s.cause := rfl
@[simp] theorem setSeq_stopUnconf (q : Seq) (s : State) : (setSeq q s).stopUnconf = s.stopUnconf := rfl
@[simp] theorem setSeq_illegal (q : Seq) (s : State) : (setSeq q s).illegal = s.illegal := rfl
@[simp] theorem setSeq_lastStatus (q : Seq) (s : State) : (setSeq q s).lastStatus = s.lastStatus := rfl
@[simp] theorem setSeq_rxdata (q : Seq) (s : State) : (setSeq q s).rxdata = s.rxdata := rfl
@[simp] theorem setSeq_bus (q : Seq) (s : State) : (setSeq q s).bus = s.bus := rfl
@[simp] theorem setSeq_host (q : Seq) (s : State) : (setSeq q s).host = s.host := rfl
@[simp] theorem setSeq_script (q : Seq) (s : State) : (setSeq q s).script = s.script := rfl
@[simp] theorem setSeq_trace (q : Seq) (s : State) : (setSeq q s).trace = s.trace := rfl
@[simp] theorem setSeq_statLog (q : Seq) (s : State) : (setSeq q s).statLog = s.statLog := rfl
@[simp] theorem setSeq_resets (q : Seq) (s : State) : (setSeq q s).resets = s.resets := rfl

/-! ### setLastStatus -/

@[simp] theorem setLastStatus_cfg (v : Byte) (s : State) : (setLastStatus v s).cfg = s.cfg := rfl
@[simp] theorem setLastStatus_cmd (v : Byte) (s : State) : (setLastStatus v s).cmd = s.cmd := rfl
@[simp] theorem setLastStatus_cmdValid (v : Byte) (s : State) : (setLastStatus v s).cmdValid = s.cmdValid := rfl
@[simp] theorem setLastStatus_op (v : Byte) (s : State) : (setLastStatus v s).op = s.op := rfl
@[simp] theorem setLastStatus_dir (v : Byte) (s : State) : (setLastStatus v s).dir = s.dir := rfl
@[simp] theorem setLastStatus_addr7 (v : Byte) (s : State) : (setLastStatus v s).addr7 = s.addr7 := rfl
@[simp] theorem setLastStatus_byte (v : Byte) (s : State) : (setLastStatus v s).byte = s.byte := rfl
@[simp] theorem setLastStatus_len (v : Byte) (s : State) : (setLastStatus v s).len = s.len := rfl
@[simp] theorem setLastStatus_buf (v : Byte) (s : State) : (setLastStatus v s).buf = s.buf := rfl
@[simp] theorem setLastStatus_busy (v : Byte) (s : State) : (setLastStatus v s).busy = s.busy := rfl
@[simp] theorem setLastStatus_done (v : Byte) (s : State) : (setLastStatus v s).done = s.done := rfl
@[simp] theorem setLastStatus_phase (v : Byte) (s : State) : (setLastStatus v s).phase = s.phase := rfl
@[simp] theorem setLastStatus_seq (v : Byte) (s : State) : (setLastStatus v s).seq = s.seq := rfl
@[simp] theorem setLastStatus_idx (v : Byte) (s : State) : (setLastStatus v s).idx = s.idx := rfl
@[simp] theorem setLastStatus_tmo (v : Byte) (s : State) : (setLastStatus v s).tmo = s.tmo := rfl
@[simp] theorem setLastStatus_outcome (v : Byte) (s : State) : (setLastStatus v s).outcome = s.outcome := rfl
@[simp] theorem setLastStatus_cause (v : Byte) (s : State) : (setLastStatus v s).cause = s.cause := rfl
@[simp] theorem setLastStatus_stopUnconf (v : Byte) (s : State) : (setLastStatus v s).stopUnconf = s.stopUnconf := rfl
@[simp] theorem setLastStatus_illegal (v : Byte) (s : State) : (setLastStatus v s).illegal = s.illegal := rfl
@[simp] theorem setLastStatus_lastStatus (v : Byte) (s : State) : (setLastStatus v s).lastStatus = v := rfl
@[simp] theorem setLastStatus_rxdata (v : Byte) (s : State) : (setLastStatus v s).rxdata = s.rxdata := rfl
@[simp] theorem setLastStatus_bus (v : Byte) (s : State) : (setLastStatus v s).bus = s.bus := rfl
@[simp] theorem setLastStatus_host (v : Byte) (s : State) : (setLastStatus v s).host = s.host := rfl
@[simp] theorem setLastStatus_script (v : Byte) (s : State) : (setLastStatus v s).script = s.script := rfl
@[simp] theorem setLastStatus_trace (v : Byte) (s : State) : (setLastStatus v s).trace = s.trace := rfl
@[simp] theorem setLastStatus_statLog (v : Byte) (s : State) : (setLastStatus v s).statLog = s.statLog := rfl
@[simp] theorem setLastStatus_resets (v : Byte) (s : State) : (setLastStatus v s).resets = s.resets := rfl

/-! ### setRxdata -/

@[simp] theorem setRxdata_cfg (d : Byte) (s : State) : (setRxdata d s).cfg = s.cfg := rfl
@[simp] theorem setRxdata_cmd (d : Byte) (s : State) : (setRxdata d s).cmd = s.cmd := rfl
@[simp] theorem setRxdata_cmdValid (d : Byte) (s : State) : (setRxdata d s).cmdValid = s.cmdValid := rfl
@[simp] theorem setRxdata_op (d : Byte) (s : State) : (setRxdata d s).op = s.op := rfl
@[simp] theorem setRxdata_dir (d : Byte) (s : State) : (setRxdata d s).dir = s.dir := rfl
@[simp] theorem setRxdata_addr7 (d : Byte) (s : State) : (setRxdata d s).addr7 = s.addr7 := rfl
@[simp] theorem setRxdata_byte (d : Byte) (s : State) : (setRxdata d s).byte = s.byte := rfl
@[simp] theorem setRxdata_len (d : Byte) (s : State) : (setRxdata d s).len = s.len := rfl
@[simp] theorem setRxdata_buf (d : Byte) (s : State) : (setRxdata d s).buf = s.buf := rfl
@[simp] theorem setRxdata_busy (d : Byte) (s : State) : (setRxdata d s).busy = s.busy := rfl
@[simp] theorem setRxdata_done (d : Byte) (s : State) : (setRxdata d s).done = s.done := rfl
@[simp] theorem setRxdata_phase (d : Byte) (s : State) : (setRxdata d s).phase = s.phase := rfl
@[simp] theorem setRxdata_seq (d : Byte) (s : State) : (setRxdata d s).seq = s.seq := rfl
@[simp] theorem setRxdata_idx (d : Byte) (s : State) : (setRxdata d s).idx = s.idx := rfl
@[simp] theorem setRxdata_tmo (d : Byte) (s : State) : (setRxdata d s).tmo = s.tmo := rfl
@[simp] theorem setRxdata_outcome (d : Byte) (s : State) : (setRxdata d s).outcome = s.outcome := rfl
@[simp] theorem setRxdata_cause (d : Byte) (s : State) : (setRxdata d s).cause = s.cause := rfl
@[simp] theorem setRxdata_stopUnconf (d : Byte) (s : State) : (setRxdata d s).stopUnconf = s.stopUnconf := rfl
@[simp] theorem setRxdata_illegal (d : Byte) (s : State) : (setRxdata d s).illegal = s.illegal := rfl
@[simp] theorem setRxdata_lastStatus (d : Byte) (s : State) : (setRxdata d s).lastStatus = s.lastStatus := rfl
@[simp] theorem setRxdata_rxdata (d : Byte) (s : State) : (setRxdata d s).rxdata = d := rfl
@[simp] theorem setRxdata_bus (d : Byte) (s : State) : (setRxdata d s).bus = s.bus := rfl
@[simp] theorem setRxdata_host (d : Byte) (s : State) : (setRxdata d s).host = s.host := rfl
@[simp] theorem setRxdata_script (d : Byte) (s : State) : (setRxdata d s).script = s.script := rfl
@[simp] theorem setRxdata_trace (d : Byte) (s : State) : (setRxdata d s).trace = s.trace := rfl
@[simp] theorem setRxdata_statLog (d : Byte) (s : State) : (setRxdata d s).statLog = s.statLog := rfl
@[simp] theorem setRxdata_resets (d : Byte) (s : State) : (setRxdata d s).resets = s.resets := rfl

/-! ### setStopUnconf -/

@[simp] theorem setStopUnconf_cfg (b : Bool) (s : State) : (setStopUnconf b s).cfg = s.cfg := rfl
@[simp] theorem setStopUnconf_cmd (b : Bool) (s : State) : (setStopUnconf b s).cmd = s.cmd := rfl
@[simp] theorem setStopUnconf_cmdValid (b : Bool) (s : State) : (setStopUnconf b s).cmdValid = s.cmdValid := rfl
@[simp] theorem setStopUnconf_op (b : Bool) (s : State) : (setStopUnconf b s).op = s.op := rfl
@[simp] theorem setStopUnconf_dir (b : Bool) (s : State) : (setStopUnconf b s).dir = s.dir := rfl
@[simp] theorem setStopUnconf_addr7 (b : Bool) (s : State) : (setStopUnconf b s).addr7 = s.addr7 := rfl
@[simp] theorem setStopUnconf_byte (b : Bool) (s : State) : (setStopUnconf b s).byte = s.byte := rfl
@[simp] theorem setStopUnconf_len (b : Bool) (s : State) : (setStopUnconf b s).len = s.len := rfl
@[simp] theorem setStopUnconf_buf (b : Bool) (s : State) : (setStopUnconf b s).buf = s.buf := rfl
@[simp] theorem setStopUnconf_busy (b : Bool) (s : State) : (setStopUnconf b s).busy = s.busy := rfl
@[simp] theorem setStopUnconf_done (b : Bool) (s : State) : (setStopUnconf b s).done = s.done := rfl
@[simp] theorem setStopUnconf_phase (b : Bool) (s : State) : (setStopUnconf b s).phase = s.phase := rfl
@[simp] theorem setStopUnconf_seq (b : Bool) (s : State) : (setStopUnconf b s).seq = s.seq := rfl
@[simp] theorem setStopUnconf_idx (b : Bool) (s : State) : (setStopUnconf b s).idx = s.idx := rfl
@[simp] theorem setStopUnconf_tmo (b : Bool) (s : State) : (setStopUnconf b s).tmo = s.tmo := rfl
@[simp] theorem setStopUnconf_outcome (b : Bool) (s : State) : (setStopUnconf b s).outcome = s.outcome := rfl
@[simp] theorem setStopUnconf_cause (b : Bool) (s : State) : (setStopUnconf b s).cause = s.cause := rfl
@[simp] theorem setStopUnconf_stopUnconf (b : Bool) (s : State) : (setStopUnconf b s).stopUnconf = b := rfl
@[simp] theorem setStopUnconf_illegal (b : Bool) (s : State) : (setStopUnconf b s).illegal = s.illegal := rfl
@[simp] theorem setStopUnconf_lastStatus (b : Bool) (s : State) : (setStopUnconf b s).lastStatus = s.lastStatus := rfl
@[simp] theorem setStopUnconf_rxdata (b : Bool) (s : State) : (setStopUnconf b s).rxdata = s.rxdata := rfl
@[simp] theorem setStopUnconf_bus (b : Bool) (s : State) : (setStopUnconf b s).bus = s.bus := rfl
@[simp] theorem setStopUnconf_host (b : Bool) (s : State) : (setStopUnconf b s).host = s.host := rfl
@[simp] theorem setStopUnconf_script (b : Bool) (s : State) : (setStopUnconf b s).script = s.script := rfl
@[simp] theorem setStopUnconf_trace (b : Bool) (s : State) : (setStopUnconf b s).trace = s.trace := rfl
@[simp] theorem setStopUnconf_statLog (b : Bool) (s : State) : (setStopUnconf b s).statLog = s.statLog := rfl
@[simp] theorem setStopUnconf_resets (b : Bool) (s : State) : (setStopUnconf b s).resets = s.resets := rfl

/-! ### incIdx -/

@[simp] theorem incIdx_cfg (s : State) : (incIdx s).cfg = s.cfg := rfl
@[simp] theorem incIdx_cmd (s : State) : (incIdx s).cmd = s.cmd := rfl
@[simp] theorem incIdx_cmdValid (s : State) : (incIdx s).cmdValid = s.cmdValid := rfl
@[simp] theorem incIdx_op (s : State) : (incIdx s).op = s.op := rfl
@[simp] theorem incIdx_dir (s : State) : (incIdx s).dir = s.dir := rfl
@[simp] theorem incIdx_addr7 (s : State) : (incIdx s).addr7 = s.addr7 := rfl
@[simp] theorem incIdx_byte (s : State) : (incIdx s).byte = s.byte := rfl
@[simp] theorem incIdx_len (s : State) : (incIdx s).len = s.len := rfl
@[simp] theorem incIdx_buf (s : State) : (incIdx s).buf = s.buf := rfl
@[simp] theorem incIdx_busy (s : State) : (incIdx s).busy = s.busy := rfl
@[simp] theorem incIdx_done (s : State) : (incIdx s).done = s.done := rfl
@[simp] theorem incIdx_phase (s : State) : (incIdx s).phase = s.phase := rfl
@[simp] theorem incIdx_seq (s : State) : (incIdx s).seq = s.seq := rfl
@[simp] theorem incIdx_idx (s : State) : (incIdx s).idx = s.idx + 1 := rfl
@[simp] theorem incIdx_tmo (s : State) : (incIdx s).tmo = s.tmo := rfl
@[simp] theorem incIdx_outcome (s : State) : (incIdx s).outcome = s.outcome := rfl
@[simp] theorem incIdx_cause (s : State) : (incIdx s).cause = s.cause := rfl
@[simp] theorem incIdx_stopUnconf (s : State) : (incIdx s).stopUnconf = s.stopUnconf := rfl
@[simp] theorem incIdx_illegal (s : State) : (incIdx s).illegal = s.illegal := rfl
@[simp] theorem incIdx_lastStatus (s : State) : (incIdx s).lastStatus = s.lastStatus := rfl
@[simp] theorem incIdx_rxdata (s : State) : (incIdx s).rxdata = s.rxdata := rfl
@[simp] theorem incIdx_bus (s : State) : (incIdx s).bus = s.bus := rfl
@[simp] theorem incIdx_host (s : State) : (incIdx s).host = s.host := rfl
@[simp] theorem incIdx_script (s : State) : (incIdx s).script = s.script := rfl
@[simp] theorem incIdx_trace (s : State) : (incIdx s).trace = s.trace := rfl
@[simp] theorem incIdx_statLog (s : State) : (incIdx s).statLog = s.statLog := rfl
@[simp] theorem incIdx_resets (s : State) : (incIdx s).resets = s.resets := rfl

/-! ### writeBuf -/

@[simp] theorem writeBuf_cfg (i v : Byte) (s : State) : (writeBuf i v s).cfg = s.cfg := rfl
@[simp] theorem writeBuf_cmd (i v : Byte) (s : State) : (writeBuf i v s).cmd = s.cmd := rfl
@[simp] theorem writeBuf_cmdValid (i v : Byte) (s : State) : (writeBuf i v s).cmdValid = s.cmdValid := rfl
@[simp] theorem writeBuf_op (i v : Byte) (s : State) : (writeBuf i v s).op = s.op := rfl
@[simp] theorem writeBuf_dir (i v : Byte) (s : State) : (writeBuf i v s).dir = s.dir := rfl
@[simp] theorem writeBuf_addr7 (i v : Byte) (s : State) : (writeBuf i v s).addr7 = s.addr7 := rfl
@[simp] theorem writeBuf_byte (i v : Byte) (s : State) : (writeBuf i v s).byte = s.byte := rfl
@[simp] theorem writeBuf_len (i v : Byte) (s : State) : (writeBuf i v s).len = s.len := rfl
@[simp] theorem writeBuf_buf (i v : Byte) (s : State) : (writeBuf i v s).buf = Memory.write s.buf i.toNat v := rfl
@[simp] theorem writeBuf_busy (i v : Byte) (s : State) : (writeBuf i v s).busy = s.busy := rfl
@[simp] theorem writeBuf_done (i v : Byte) (s : State) : (writeBuf i v s).done = s.done := rfl
@[simp] theorem writeBuf_phase (i v : Byte) (s : State) : (writeBuf i v s).phase = s.phase := rfl
@[simp] theorem writeBuf_seq (i v : Byte) (s : State) : (writeBuf i v s).seq = s.seq := rfl
@[simp] theorem writeBuf_idx (i v : Byte) (s : State) : (writeBuf i v s).idx = s.idx := rfl
@[simp] theorem writeBuf_tmo (i v : Byte) (s : State) : (writeBuf i v s).tmo = s.tmo := rfl
@[simp] theorem writeBuf_outcome (i v : Byte) (s : State) : (writeBuf i v s).outcome = s.outcome := rfl
@[simp] theorem writeBuf_cause (i v : Byte) (s : State) : (writeBuf i v s).cause = s.cause := rfl
@[simp] theorem writeBuf_stopUnconf (i v : Byte) (s : State) : (writeBuf i v s).stopUnconf = s.stopUnconf := rfl
@[simp] theorem writeBuf_illegal (i v : Byte) (s : State) : (writeBuf i v s).illegal = s.illegal := rfl
@[simp] theorem writeBuf_lastStatus (i v : Byte) (s : State) : (writeBuf i v s).lastStatus = s.lastStatus := rfl
@[simp] theorem writeBuf_rxdata (i v : Byte) (s : State) : (writeBuf i v s).rxdata = s.rxdata := rfl
@[simp] theorem writeBuf_bus (i v : Byte) (s : State) : (writeBuf i v s).bus = s.bus := rfl
@[simp] theorem writeBuf_host (i v : Byte) (s : State) : (writeBuf i v s).host = s.host := rfl
@[simp] theorem writeBuf_script (i v : Byte) (s : State) : (writeBuf i v s).script = s.script := rfl
@[simp] theorem writeBuf_trace (i v : Byte) (s : State) : (writeBuf i v s).trace = s.trace := rfl
@[simp] theorem writeBuf_statLog (i v : Byte) (s : State) : (writeBuf i v s).statLog = s.statLog := rfl
@[simp] theorem writeBuf_resets (i v : Byte) (s : State) : (writeBuf i v s).resets = s.resets := rfl

/-! ### accept -/

@[simp] theorem accept_cfg (f : Cmd32) (s : State) : (accept f s).cfg = s.cfg := rfl
@[simp] theorem accept_cmd (f : Cmd32) (s : State) : (accept f s).cmd = s.cmd := rfl
@[simp] theorem accept_cmdValid (f : Cmd32) (s : State) : (accept f s).cmdValid = s.cmdValid := rfl
@[simp] theorem accept_op (f : Cmd32) (s : State) : (accept f s).op = f.op := rfl
@[simp] theorem accept_dir (f : Cmd32) (s : State) : (accept f s).dir = Dir.ofBit f.dir := rfl
@[simp] theorem accept_addr7 (f : Cmd32) (s : State) : (accept f s).addr7 = f.addr7 := rfl
@[simp] theorem accept_byte (f : Cmd32) (s : State) : (accept f s).byte = f.byte := rfl
@[simp] theorem accept_len (f : Cmd32) (s : State) : (accept f s).len = f.len := rfl
@[simp] theorem accept_buf (f : Cmd32) (s : State) : (accept f s).buf = s.buf := rfl
@[simp] theorem accept_busy (f : Cmd32) (s : State) : (accept f s).busy = true := rfl
@[simp] theorem accept_done (f : Cmd32) (s : State) : (accept f s).done = false := rfl
@[simp] theorem accept_phase (f : Cmd32) (s : State) : (accept f s).phase = s.phase := rfl
@[simp] theorem accept_seq (f : Cmd32) (s : State) : (accept f s).seq = firstSeq f.op := rfl
@[simp] theorem accept_idx (f : Cmd32) (s : State) : (accept f s).idx = 0#8 := rfl
@[simp] theorem accept_tmo (f : Cmd32) (s : State) : (accept f s).tmo = s.tmo := rfl
@[simp] theorem accept_outcome (f : Cmd32) (s : State) : (accept f s).outcome = s.outcome := rfl
@[simp] theorem accept_cause (f : Cmd32) (s : State) : (accept f s).cause = s.cause := rfl
@[simp] theorem accept_stopUnconf (f : Cmd32) (s : State) : (accept f s).stopUnconf = s.stopUnconf := rfl
@[simp] theorem accept_illegal (f : Cmd32) (s : State) : (accept f s).illegal = s.illegal := rfl
@[simp] theorem accept_lastStatus (f : Cmd32) (s : State) : (accept f s).lastStatus = s.lastStatus := rfl
@[simp] theorem accept_rxdata (f : Cmd32) (s : State) : (accept f s).rxdata = s.rxdata := rfl
@[simp] theorem accept_bus (f : Cmd32) (s : State) : (accept f s).bus = s.bus := rfl
@[simp] theorem accept_host (f : Cmd32) (s : State) : (accept f s).host = s.host := rfl
@[simp] theorem accept_script (f : Cmd32) (s : State) : (accept f s).script = s.script := rfl
@[simp] theorem accept_trace (f : Cmd32) (s : State) : (accept f s).trace = s.trace := rfl
@[simp] theorem accept_statLog (f : Cmd32) (s : State) : (accept f s).statLog = s.statLog := rfl
@[simp] theorem accept_resets (f : Cmd32) (s : State) : (accept f s).resets = s.resets := rfl

/-! ### complete -/

@[simp] theorem complete_cfg (c : Cause) (s : State) : (complete c s).cfg = s.cfg := rfl
@[simp] theorem complete_cmd (c : Cause) (s : State) : (complete c s).cmd = s.cmd := rfl
@[simp] theorem complete_cmdValid (c : Cause) (s : State) : (complete c s).cmdValid = s.cmdValid := rfl
@[simp] theorem complete_op (c : Cause) (s : State) : (complete c s).op = s.op := rfl
@[simp] theorem complete_dir (c : Cause) (s : State) : (complete c s).dir = s.dir := rfl
@[simp] theorem complete_addr7 (c : Cause) (s : State) : (complete c s).addr7 = s.addr7 := rfl
@[simp] theorem complete_byte (c : Cause) (s : State) : (complete c s).byte = s.byte := rfl
@[simp] theorem complete_len (c : Cause) (s : State) : (complete c s).len = s.len := rfl
@[simp] theorem complete_buf (c : Cause) (s : State) : (complete c s).buf = s.buf := rfl
@[simp] theorem complete_busy (c : Cause) (s : State) : (complete c s).busy = false := rfl
@[simp] theorem complete_done (c : Cause) (s : State) : (complete c s).done = true := rfl
@[simp] theorem complete_phase (c : Cause) (s : State) : (complete c s).phase = s.phase := rfl
@[simp] theorem complete_seq (c : Cause) (s : State) : (complete c s).seq = .idle := rfl
@[simp] theorem complete_idx (c : Cause) (s : State) : (complete c s).idx = s.idx := rfl
@[simp] theorem complete_tmo (c : Cause) (s : State) : (complete c s).tmo = s.tmo := rfl
@[simp] theorem complete_outcome (c : Cause) (s : State) : (complete c s).outcome = outcomeOf c := rfl
@[simp] theorem complete_cause (c : Cause) (s : State) : (complete c s).cause = c := rfl
@[simp] theorem complete_stopUnconf (c : Cause) (s : State) : (complete c s).stopUnconf = s.stopUnconf := rfl
@[simp] theorem complete_illegal (c : Cause) (s : State) : (complete c s).illegal = false := rfl
@[simp] theorem complete_lastStatus (c : Cause) (s : State) : (complete c s).lastStatus = s.lastStatus := rfl
@[simp] theorem complete_rxdata (c : Cause) (s : State) : (complete c s).rxdata = s.rxdata := rfl
@[simp] theorem complete_bus (c : Cause) (s : State) : (complete c s).bus = s.bus := rfl
@[simp] theorem complete_host (c : Cause) (s : State) : (complete c s).host = s.host := rfl
@[simp] theorem complete_script (c : Cause) (s : State) : (complete c s).script = s.script := rfl
@[simp] theorem complete_trace (c : Cause) (s : State) : (complete c s).trace = s.trace := rfl
@[simp] theorem complete_statLog (c : Cause) (s : State) : (complete c s).statLog = s.statLog := rfl
@[simp] theorem complete_resets (c : Cause) (s : State) : (complete c s).resets = s.resets := rfl

/-! ### completeIllegal -/

@[simp] theorem completeIllegal_cfg (s : State) : (completeIllegal s).cfg = s.cfg := rfl
@[simp] theorem completeIllegal_cmd (s : State) : (completeIllegal s).cmd = s.cmd := rfl
@[simp] theorem completeIllegal_cmdValid (s : State) : (completeIllegal s).cmdValid = s.cmdValid := rfl
@[simp] theorem completeIllegal_op (s : State) : (completeIllegal s).op = s.op := rfl
@[simp] theorem completeIllegal_dir (s : State) : (completeIllegal s).dir = s.dir := rfl
@[simp] theorem completeIllegal_addr7 (s : State) : (completeIllegal s).addr7 = s.addr7 := rfl
@[simp] theorem completeIllegal_byte (s : State) : (completeIllegal s).byte = s.byte := rfl
@[simp] theorem completeIllegal_len (s : State) : (completeIllegal s).len = s.len := rfl
@[simp] theorem completeIllegal_buf (s : State) : (completeIllegal s).buf = s.buf := rfl
@[simp] theorem completeIllegal_busy (s : State) : (completeIllegal s).busy = false := rfl
@[simp] theorem completeIllegal_done (s : State) : (completeIllegal s).done = true := rfl
@[simp] theorem completeIllegal_phase (s : State) : (completeIllegal s).phase = s.phase := rfl
@[simp] theorem completeIllegal_seq (s : State) : (completeIllegal s).seq = .idle := rfl
@[simp] theorem completeIllegal_idx (s : State) : (completeIllegal s).idx = s.idx := rfl
@[simp] theorem completeIllegal_tmo (s : State) : (completeIllegal s).tmo = s.tmo := rfl
@[simp] theorem completeIllegal_outcome (s : State) : (completeIllegal s).outcome = s.outcome := rfl
@[simp] theorem completeIllegal_cause (s : State) : (completeIllegal s).cause = s.cause := rfl
@[simp] theorem completeIllegal_stopUnconf (s : State) : (completeIllegal s).stopUnconf = s.stopUnconf := rfl
@[simp] theorem completeIllegal_illegal (s : State) : (completeIllegal s).illegal = true := rfl
@[simp] theorem completeIllegal_lastStatus (s : State) : (completeIllegal s).lastStatus = s.lastStatus := rfl
@[simp] theorem completeIllegal_rxdata (s : State) : (completeIllegal s).rxdata = s.rxdata := rfl
@[simp] theorem completeIllegal_bus (s : State) : (completeIllegal s).bus = s.bus := rfl
@[simp] theorem completeIllegal_host (s : State) : (completeIllegal s).host = s.host := rfl
@[simp] theorem completeIllegal_script (s : State) : (completeIllegal s).script = s.script := rfl
@[simp] theorem completeIllegal_trace (s : State) : (completeIllegal s).trace = s.trace := rfl
@[simp] theorem completeIllegal_statLog (s : State) : (completeIllegal s).statLog = s.statLog := rfl
@[simp] theorem completeIllegal_resets (s : State) : (completeIllegal s).resets = s.resets := rfl

/-! ### takeCommand -/

@[simp] theorem takeCommand_cfg (s : State) : (takeCommand s).cfg = s.cfg := rfl
@[simp] theorem takeCommand_cmd (s : State) : (takeCommand s).cmd = s.cmd := rfl
@[simp] theorem takeCommand_cmdValid (s : State) : (takeCommand s).cmdValid = false := rfl
@[simp] theorem takeCommand_op (s : State) : (takeCommand s).op = s.op := rfl
@[simp] theorem takeCommand_dir (s : State) : (takeCommand s).dir = s.dir := rfl
@[simp] theorem takeCommand_addr7 (s : State) : (takeCommand s).addr7 = s.addr7 := rfl
@[simp] theorem takeCommand_byte (s : State) : (takeCommand s).byte = s.byte := rfl
@[simp] theorem takeCommand_len (s : State) : (takeCommand s).len = s.len := rfl
@[simp] theorem takeCommand_buf (s : State) : (takeCommand s).buf = s.buf := rfl
@[simp] theorem takeCommand_busy (s : State) : (takeCommand s).busy = s.busy := rfl
@[simp] theorem takeCommand_done (s : State) : (takeCommand s).done = s.done := rfl
@[simp] theorem takeCommand_phase (s : State) : (takeCommand s).phase = s.phase := rfl
@[simp] theorem takeCommand_seq (s : State) : (takeCommand s).seq = s.seq := rfl
@[simp] theorem takeCommand_idx (s : State) : (takeCommand s).idx = s.idx := rfl
@[simp] theorem takeCommand_tmo (s : State) : (takeCommand s).tmo = s.tmo := rfl
@[simp] theorem takeCommand_outcome (s : State) : (takeCommand s).outcome = s.outcome := rfl
@[simp] theorem takeCommand_cause (s : State) : (takeCommand s).cause = s.cause := rfl
@[simp] theorem takeCommand_stopUnconf (s : State) : (takeCommand s).stopUnconf = s.stopUnconf := rfl
@[simp] theorem takeCommand_illegal (s : State) : (takeCommand s).illegal = s.illegal := rfl
@[simp] theorem takeCommand_lastStatus (s : State) : (takeCommand s).lastStatus = s.lastStatus := rfl
@[simp] theorem takeCommand_rxdata (s : State) : (takeCommand s).rxdata = s.rxdata := rfl
@[simp] theorem takeCommand_bus (s : State) : (takeCommand s).bus = s.bus := rfl
@[simp] theorem takeCommand_host (s : State) : (takeCommand s).host = s.host := rfl
@[simp] theorem takeCommand_script (s : State) : (takeCommand s).script = s.script := rfl
@[simp] theorem takeCommand_trace (s : State) : (takeCommand s).trace = s.trace := rfl
@[simp] theorem takeCommand_statLog (s : State) : (takeCommand s).statLog = s.statLog := rfl
@[simp] theorem takeCommand_resets (s : State) : (takeCommand s).resets = s.resets := rfl

/-! ### presentWord -/

@[simp] theorem presentWord_cfg (w : Word) (s : State) : (presentWord w s).cfg = s.cfg := rfl
@[simp] theorem presentWord_cmd (w : Word) (s : State) : (presentWord w s).cmd = w := rfl
@[simp] theorem presentWord_cmdValid (w : Word) (s : State) : (presentWord w s).cmdValid = true := rfl
@[simp] theorem presentWord_op (w : Word) (s : State) : (presentWord w s).op = s.op := rfl
@[simp] theorem presentWord_dir (w : Word) (s : State) : (presentWord w s).dir = s.dir := rfl
@[simp] theorem presentWord_addr7 (w : Word) (s : State) : (presentWord w s).addr7 = s.addr7 := rfl
@[simp] theorem presentWord_byte (w : Word) (s : State) : (presentWord w s).byte = s.byte := rfl
@[simp] theorem presentWord_len (w : Word) (s : State) : (presentWord w s).len = s.len := rfl
@[simp] theorem presentWord_buf (w : Word) (s : State) : (presentWord w s).buf = s.buf := rfl
@[simp] theorem presentWord_busy (w : Word) (s : State) : (presentWord w s).busy = false := rfl
@[simp] theorem presentWord_done (w : Word) (s : State) : (presentWord w s).done = s.done := rfl
@[simp] theorem presentWord_phase (w : Word) (s : State) : (presentWord w s).phase = s.phase := rfl
@[simp] theorem presentWord_seq (w : Word) (s : State) : (presentWord w s).seq = s.seq := rfl
@[simp] theorem presentWord_idx (w : Word) (s : State) : (presentWord w s).idx = s.idx := rfl
@[simp] theorem presentWord_tmo (w : Word) (s : State) : (presentWord w s).tmo = s.tmo := rfl
@[simp] theorem presentWord_outcome (w : Word) (s : State) : (presentWord w s).outcome = s.outcome := rfl
@[simp] theorem presentWord_cause (w : Word) (s : State) : (presentWord w s).cause = s.cause := rfl
@[simp] theorem presentWord_stopUnconf (w : Word) (s : State) : (presentWord w s).stopUnconf = s.stopUnconf := rfl
@[simp] theorem presentWord_illegal (w : Word) (s : State) : (presentWord w s).illegal = s.illegal := rfl
@[simp] theorem presentWord_lastStatus (w : Word) (s : State) : (presentWord w s).lastStatus = s.lastStatus := rfl
@[simp] theorem presentWord_rxdata (w : Word) (s : State) : (presentWord w s).rxdata = s.rxdata := rfl
@[simp] theorem presentWord_bus (w : Word) (s : State) : (presentWord w s).bus = s.bus := rfl
@[simp] theorem presentWord_host (w : Word) (s : State) : (presentWord w s).host = s.host := rfl
@[simp] theorem presentWord_script (w : Word) (s : State) : (presentWord w s).script = s.script := rfl
@[simp] theorem presentWord_trace (w : Word) (s : State) : (presentWord w s).trace = s.trace := rfl
@[simp] theorem presentWord_statLog (w : Word) (s : State) : (presentWord w s).statLog = s.statLog := rfl
@[simp] theorem presentWord_resets (w : Word) (s : State) : (presentWord w s).resets = s.resets := rfl

/-! ### STAT sees neither the bus controller nor TMO, SEQ or the trace -/

@[simp] theorem stat_emit (e : Event) (s : State) : stat (emit e s) = stat s := rfl
@[simp] theorem stat_setBus (b : BusController) (s : State) : stat (setBus b s) = stat s := rfl
@[simp] theorem stat_setTmo (v : BitVec 16) (s : State) : stat (setTmo v s) = stat s := rfl
@[simp] theorem stat_setSeq (q : Seq) (s : State) : stat (setSeq q s) = stat s := rfl
@[simp] theorem stat_setRxdata (d : Byte) (s : State) : stat (setRxdata d s) = stat s := rfl
@[simp] theorem stat_writeBuf (i v : Byte) (s : State) : stat (writeBuf i v s) = stat s := rfl

end Sys2Proof.Machine
end

