-- ==== Sys2Proof/Laws/Memory.lean ====
section
/-! SUPPORT. BUF: every operation keeps the canonical form, and a read after a write. -/

namespace Sys2Proof.Machine

theorem Memory.mem_write {m : Memory} {a : Nat} {v : Byte} {c : Host.Cell} (h : c ∈ Memory.write m a v) :
    c = (a, v) ∨ c ∈ m := by
  induction m with
  | nil => simpa [Memory.write] using h
  | cons d m ih =>
    simp only [Memory.write] at h
    split at h
    · simpa using h
    · split at h
      · rcases List.mem_cons.1 h with h | h
        · exact .inl h
        · exact .inr (List.mem_cons_of_mem _ h)
      · rcases List.mem_cons.1 h with h | h
        · exact .inr (by simp [h])
        · exact (ih h).imp_right (List.mem_cons_of_mem _)

theorem Memory.write_wf {m : Memory} (a : Nat) (v : Byte) (ha : a < bufSize) (h : Memory.wf m) :
    Memory.wf (Memory.write m a v) := by
  refine ⟨?_, fun c hc => ?_⟩
  · obtain ⟨hp, -⟩ := h
    induction m with
    | nil => simp [Memory.write]
    | cons d m ih =>
      obtain ⟨hd, hm⟩ := List.pairwise_cons.1 hp
      simp only [Memory.write]
      split
      · rename_i hlt
        refine List.pairwise_cons.2 ⟨fun x hx => ?_, hp⟩
        rcases List.mem_cons.1 hx with rfl | hx
        · exact hlt
        · exact lt_trans hlt (hd x hx)
      · split
        · rename_i heq
          exact List.pairwise_cons.2 ⟨fun x hx => heq ▸ hd x hx, hm⟩
        · rename_i hlt hne
          refine List.pairwise_cons.2 ⟨fun x hx => ?_, ih hm⟩
          rcases Memory.mem_write hx with rfl | hx
          · show d.1 < a; omega
          · exact hd x hx
  · rcases Memory.mem_write hc with rfl | hc
    · exact ha
    · exact h.2 c hc

theorem Memory.lookup_write_self (m : Memory) (a : Nat) (v : Byte) :
    Memory.lookup (Memory.write m a v) a = some v := by
  induction m with
  | nil => simp [Memory.write, Memory.lookup]
  | cons c m ih =>
    simp only [Memory.write]
    split
    · simp [Memory.lookup]
    · split
      · simp [Memory.lookup]
      · rename_i hne
        simp [Memory.lookup, ih, Ne.symm hne]

theorem Memory.lookup_write_of_ne (m : Memory) {a b : Nat} (v : Byte) (h : b ≠ a) :
    Memory.lookup (Memory.write m a v) b = Memory.lookup m b := by
  induction m with
  | nil => simp [Memory.write, Memory.lookup, Ne.symm h]
  | cons c m ih =>
    simp only [Memory.write]
    split
    · simp [Memory.lookup, Ne.symm h]
    · split
      · rename_i heq
        simp [Memory.lookup, Ne.symm h, ← heq]
      · simp [Memory.lookup, ih]

theorem Memory.nil_wf : Memory.wf [] := by simp [Memory.wf]

theorem reset_buf_wf : Memory.wf State.reset.buf := Memory.nil_wf

theorem writeBuf_wf (i v : Byte) {s : State} (h : Memory.wf s.buf) : Memory.wf (writeBuf i v s).buf :=
  Memory.write_wf _ _ (by have := i.isLt; simp only [bufSize]; omega) h

theorem readBuf_congr {s t : State} (hb : t.buf = s.buf) (hr : t.resets = s.resets) (i : Byte) :
    readBuf t i = readBuf s i := by
  simp [readBuf, hb, hr]

@[simp] theorem readBuf_emit (e : Event) (s : State) (i : Byte) : readBuf (emit e s) i = readBuf s i := rfl

theorem readBuf_writeBuf_self (i v : Byte) (s : State) : readBuf (writeBuf i v s) i = v := by
  simp [readBuf, Memory.lookup_write_self]

theorem readBuf_writeBuf_of_ne {i j : Byte} (v : Byte) (s : State) (h : j ≠ i) :
    readBuf (writeBuf i v s) j = readBuf s j := by
  have : j.toNat ≠ i.toNat := fun hn => h (BitVec.eq_of_toNat_eq hn)
  simp [readBuf, Memory.lookup_write_of_ne _ _ this]

end Sys2Proof.Machine
end

