-- ==== Sys2Proof/Laws/Guard.lean ====
section
/-! SUPPORT. What the accesses and the Timeout Guard do, said once: a wait in closed form (41_timeout_guard R141). -/

namespace Sys2Proof.Machine

/-! ### Frames -/

/-- The registers no access of the bus controller and no primitive writes. -/
structure Keeps (s t : State) : Prop where
  cfg : t.cfg = s.cfg
  cmd : t.cmd = s.cmd
  cmdValid : t.cmdValid = s.cmdValid
  op : t.op = s.op
  dir : t.dir = s.dir
  addr7 : t.addr7 = s.addr7
  byte : t.byte = s.byte
  len : t.len = s.len
  busy : t.busy = s.busy
  done : t.done = s.done
  outcome : t.outcome = s.outcome
  cause : t.cause = s.cause
  illegal : t.illegal = s.illegal
  host : t.host = s.host
  resets : t.resets = s.resets

theorem Keeps.refl (s : State) : Keeps s s := by constructor <;> rfl

theorem Keeps.trans {s t u : State} (h : Keeps s t) (k : Keeps t u) : Keeps s u := by
  constructor
  · exact k.cfg.trans h.cfg
  · exact k.cmd.trans h.cmd
  · exact k.cmdValid.trans h.cmdValid
  · exact k.op.trans h.op
  · exact k.dir.trans h.dir
  · exact k.addr7.trans h.addr7
  · exact k.byte.trans h.byte
  · exact k.len.trans h.len
  · exact k.busy.trans h.busy
  · exact k.done.trans h.done
  · exact k.outcome.trans h.outcome
  · exact k.cause.trans h.cause
  · exact k.illegal.trans h.illegal
  · exact k.host.trans h.host
  · exact k.resets.trans h.resets

/-! ### The wait (41_timeout_guard R141) -/

/-- The not-ready polls a wait of budget `b` makes: `k` of them when `k < b`, else `b`. -/
def missedPolls (b : Nat) (r : Response) : Nat :=
  match r.notReady with
  | some k => if k < b then k else b
  | none => b

/-- Everything a wait of budget `b` from `s` to `t` does: it touches TMO, the bus controller and the log only. -/
structure Waited (b : Nat) (notReady ready : Event) (s t : State) : Prop where
  keeps : Keeps s t
  buf : t.buf = s.buf
  phase : t.phase = s.phase
  seq : t.seq = s.seq
  idx : t.idx = s.idx
  stopUnconf : t.stopUnconf = s.stopUnconf
  lastStatus : t.lastStatus = s.lastStatus
  rxdata : t.rxdata = s.rxdata
  script : t.script = s.script
  tmo : t.tmo = s.tmo - BitVec.ofNat 16 (missedPolls b s.bus.pending)
  trace : t.trace = s.trace ++ waitEvents b s.bus.pending notReady ready
  statLog : t.statLog = s.statLog ++
    List.replicate (waitEvents b s.bus.pending notReady ready).length (stat s)
  divider : t.bus.divider = s.bus.divider
  enabled : t.bus.enabled = s.bus.enabled
  control : t.bus.control = s.bus.control
  action : t.bus.action = s.bus.action

/-- Nothing is polled with no budget. -/
theorem Waited.zero (notReady ready : Event) (s : State) : Waited 0 notReady ready s s := by
  rcases h : s.bus.pending with ⟨_ | k, v, d⟩ <;>
    constructor <;> first | exact Keeps.refl s | simp [waitEvents, missedPolls, h]

/-- A poll that is ready ends the wait. -/
theorem Waited.ready {b : Nat} {notReady ready : Event} {s t : State} {v d : Byte} {bus : BusController}
    (hr : s.bus.pending = ⟨some 0, v, d⟩)
    (hd : bus.divider = s.bus.divider) (he : bus.enabled = s.bus.enabled)
    (hc : bus.control = s.bus.control) (ha : bus.action = s.bus.action)
    (ht : t = emit ready (setBus bus s)) : Waited (b + 1) notReady ready s t := by
  subst ht
  constructor <;> first | (constructor <;> rfl) | simp [waitEvents, missedPolls, hr, hd, he, hc, ha]

/-- A poll that is not ready, then a wait of one poll less. -/
theorem Waited.cons {b : Nat} {notReady ready : Event} {s t : State} {r : Response} {bus : BusController}
    (hr : s.bus.pending.notReady ≠ some 0) (hp : bus.pending = r)
    (hk : r.notReady = s.bus.pending.notReady.map (· - 1))
    (hd : bus.divider = s.bus.divider) (he : bus.enabled = s.bus.enabled)
    (hc : bus.control = s.bus.control) (ha : bus.action = s.bus.action)
    (h : Waited b notReady ready (setTmo (s.tmo - 1) (emit notReady (setBus bus s))) t) :
    Waited (b + 1) notReady ready s t := by
  have hev : waitEvents (b + 1) s.bus.pending notReady ready = notReady :: waitEvents b r notReady ready := by
    rcases hn : s.bus.pending.notReady with _ | _ | k
    · simp [waitEvents, hk, hn, List.replicate_succ]
    · exact absurd hn hr
    · simp only [waitEvents, hk, hn, Option.map_some, Nat.add_sub_cancel, Nat.add_lt_add_iff_right]
      split <;> simp [List.replicate_succ]
  have hm : missedPolls (b + 1) s.bus.pending = missedPolls b r + 1 := by
    rcases hn : s.bus.pending.notReady with _ | _ | k
    · simp [missedPolls, hk, hn]
    · exact absurd hn hr
    · simp only [missedPolls, hk, hn, Option.map_some, Nat.add_sub_cancel, Nat.add_lt_add_iff_right]
      split <;> rfl
  obtain ⟨hkeeps, h1, h2, h3, h4, h5, h6, h7, h8, h9, h10, h11, h12, h13, h14, h15⟩ := h
  simp [hp] at h1 h2 h3 h4 h5 h6 h7 h8 h9 h10 h11 h12 h13 h14 h15
  constructor
  · exact (show Keeps s _ by constructor <;> rfl).trans hkeeps
  all_goals simp_all [List.replicate_succ]
  rw [BitVec.sub_sub, BitVec.ofNat_add, BitVec.add_comm]

theorem waitLoop_bcDone (n : Nat) (s : State) :
    (waitLoop bcDone n s).1 = timely n s.bus.pending ∧
      Waited n (.pollDone false) (.pollDone true) s (waitLoop bcDone n s).2 ∧
      (timely n s.bus.pending = true →
        (waitLoop bcDone n s).2.bus.status = s.bus.pending.status ∧
        (waitLoop bcDone n s).2.bus.data =
          if s.bus.action.any receives then s.bus.pending.data else s.bus.data) := by
  induction n generalizing s with
  | zero =>
    refine ⟨?_, Waited.zero _ _ s, ?_⟩ <;> rcases h : s.bus.pending with ⟨_ | k, v, d⟩ <;>
      simp [waitLoop, timely]
  | succ n ih =>
    rcases h : s.bus.pending with ⟨_ | _ | k, v, d⟩
    · have e : waitLoop bcDone (n + 1) s =
          waitLoop bcDone n (setTmo (s.tmo - 1) (emit (.pollDone false) (setBus s.bus s))) := by
        simp [waitLoop, bcDone, pollPending, h]
        rw [← h]
      obtain ⟨i1, i2, i3⟩ := ih (setTmo (s.tmo - 1) (emit (.pollDone false) (setBus s.bus s)))
      rw [e]
      refine ⟨by simpa [timely, h] using i1, Waited.cons (bus := s.bus)
        (by simp [h]) rfl (by simp [h]) rfl rfl rfl rfl i2, ?_⟩
      simp [timely]
    · have e : waitLoop bcDone (n + 1) s = (true, emit (.pollDone true) (setBus (finishAction s.bus) s)) := by
        simp [waitLoop, bcDone, pollPending, h]
        rw [← h]
      rw [e]
      refine ⟨by simp [timely], Waited.ready (bus := finishAction s.bus) h rfl rfl rfl rfl rfl, ?_⟩
      simp [timely, finishAction, h]
    · have e : waitLoop bcDone (n + 1) s = waitLoop bcDone n
          (setTmo (s.tmo - 1) (emit (.pollDone false) (setBus { s.bus with pending := ⟨some k, v, d⟩ } s))) := by
        simp [waitLoop, bcDone, pollPending, h]
      obtain ⟨i1, i2, i3⟩ := ih
        (setTmo (s.tmo - 1) (emit (.pollDone false) (setBus { s.bus with pending := ⟨some k, v, d⟩ } s)))
      rw [e]
      refine ⟨by simpa [timely] using i1, Waited.cons (bus := { s.bus with pending := ⟨some k, v, d⟩ })
        (by simp [h]) rfl (by simp [h]) rfl rfl rfl rfl i2, ?_⟩
      exact fun ht => i3 (by simpa [timely] using ht)

theorem waitLoop_bcStopReleased (n : Nat) (s : State) :
    (waitLoop bcStopReleased n s).1 = timely n s.bus.pending ∧
      Waited n (.pollStop true) (.pollStop false) s (waitLoop bcStopReleased n s).2 := by
  induction n generalizing s with
  | zero =>
    refine ⟨?_, Waited.zero _ _ s⟩
    rcases h : s.bus.pending with ⟨_ | k, v, d⟩ <;> simp [waitLoop, timely]
  | succ n ih =>
    rcases h : s.bus.pending with ⟨_ | _ | k, v, d⟩
    · have e : waitLoop bcStopReleased (n + 1) s = waitLoop bcStopReleased n
          (setTmo (s.tmo - 1) (emit (.pollStop true)
            (setBus { s.bus with pending := ⟨none, v, d⟩, stopBusy := true } s))) := by
        simp [waitLoop, bcStopReleased, pollPending, h]
      obtain ⟨i1, i2⟩ := ih (setTmo (s.tmo - 1) (emit (.pollStop true)
        (setBus { s.bus with pending := ⟨none, v, d⟩, stopBusy := true } s)))
      rw [e]
      exact ⟨by simpa [timely] using i1, Waited.cons (bus := { s.bus with pending := ⟨none, v, d⟩, stopBusy := true })
        (by simp [h]) rfl (by simp [h]) rfl rfl rfl rfl i2⟩
    · have e : waitLoop bcStopReleased (n + 1) s = (true, emit (.pollStop false)
          (setBus { s.bus with pending := ⟨some 0, v, d⟩, stopBusy := false } s)) := by
        simp [waitLoop, bcStopReleased, pollPending, h]
      rw [e]
      exact ⟨by simp [timely], Waited.ready
        (bus := { s.bus with pending := ⟨some 0, v, d⟩, stopBusy := false }) h rfl rfl rfl rfl rfl⟩
    · have e : waitLoop bcStopReleased (n + 1) s = waitLoop bcStopReleased n
          (setTmo (s.tmo - 1) (emit (.pollStop true)
            (setBus { s.bus with pending := ⟨some k, v, d⟩, stopBusy := true } s))) := by
        simp [waitLoop, bcStopReleased, pollPending, h]
      obtain ⟨i1, i2⟩ := ih (setTmo (s.tmo - 1) (emit (.pollStop true)
        (setBus { s.bus with pending := ⟨some k, v, d⟩, stopBusy := true } s)))
      rw [e]
      exact ⟨by simpa [timely] using i1, Waited.cons (bus := { s.bus with pending := ⟨some k, v, d⟩, stopBusy := true })
        (by simp [h]) rfl (by simp [h]) rfl rfl rfl rfl i2⟩

end Sys2Proof.Machine
end

