-- ==== Sys2Proof/Laws/Primitives.lean ====
section
/-! SUPPORT. What a trigger, STEP and each primitive do, said once (42_primitives R150 to R159). -/

namespace Sys2Proof.Machine

/-! ### The STAT bits a log entry is read for -/

theorem statBusy_stat (s : State) : statBusy (stat s) = s.busy := by
  have h : (stat s).getLsbD 0 = (s.lastStatus ++ s.idx ++ 0#4 ++ s.phase.code ++ flag s.illegal ++
    flag s.stopUnconf ++ s.cause.code ++ s.outcome.code ++ flag s.done ++ flag s.busy).getLsbD 0 := rfl
  rw [statBusy, h, BitVec.getLsbD_append]
  cases s.busy <;> rfl

theorem statDone_stat (s : State) : statDone (stat s) = s.done := by
  have h : (stat s).getLsbD 1 = (s.lastStatus ++ s.idx ++ 0#4 ++ s.phase.code ++ flag s.illegal ++
    flag s.stopUnconf ++ s.cause.code ++ s.outcome.code ++ flag s.done ++ flag s.busy).getLsbD 1 := rfl
  rw [statDone, h, BitVec.getLsbD_append, BitVec.getLsbD_append]
  cases s.done <;> rfl

/-- The log of `t` is the log of `s` and one STAT word for each of `n` events, all with the BUSY and DONE of `s`. -/
structure Logged (n : Nat) (s t : State) : Prop where
  log : ∃ new, t.statLog = s.statLog ++ new ∧ new.length = n ∧
    ∀ w ∈ new, statBusy w = s.busy ∧ statDone w = s.done

theorem Logged.trans {m n : Nat} {s t u : State} (h : Logged m s t) (k : Logged n t u)
    (hb : t.busy = s.busy) (hd : t.done = s.done) : Logged (m + n) s u := by
  obtain ⟨x, hx, hm, hw⟩ := h.log
  obtain ⟨y, hy, hn, hv⟩ := k.log
  rw [hb, hd] at hv
  exact ⟨x ++ y, by rw [hy, hx, List.append_assoc], by simp [hm, hn], fun w h =>
    (List.mem_append.1 h).elim (hw w) (hv w)⟩

theorem Logged.refl (s : State) : Logged 0 s s := ⟨[], by simp, rfl, by simp⟩

theorem Logged.of_eq {s t : State} (h : t.statLog = s.statLog) : Logged 0 s t := ⟨[], by simp [h], rfl, by simp⟩

/-- The same log, its length written otherwise. -/
theorem Logged.cast {m n : Nat} {s t : State} (h : Logged m s t) (e : m = n) : Logged n s t := e ▸ h

theorem logged_emit (e : Event) (s : State) : Logged 1 s (emit e s) :=
  ⟨[stat s], rfl, rfl, fun w hw => by
    rw [List.mem_singleton.1 hw]
    exact ⟨statBusy_stat s, statDone_stat s⟩⟩

theorem Waited.logged {b : Nat} {nr rd : Event} {s t : State} (h : Waited b nr rd s t) :
    Logged (waitEvents b s.bus.pending nr rd).length s t :=
  ⟨_, h.statLog, by simp, fun w hw => by
    rw [(List.mem_replicate.1 hw).2]
    exact ⟨statBusy_stat s, statDone_stat s⟩⟩

/-! ### A trigger -/

/-- Everything a trigger does. -/
structure Triggered (a : Action) (s t : State) : Prop where
  keeps : Keeps s t
  buf : t.buf = s.buf
  phase : t.phase = s.phase
  seq : t.seq = s.seq
  idx : t.idx = s.idx
  tmo : t.tmo = s.tmo
  stopUnconf : t.stopUnconf = s.stopUnconf
  lastStatus : t.lastStatus = s.lastStatus
  rxdata : t.rxdata = s.rxdata
  script : t.script = s.script.tail
  trace : t.trace = s.trace ++ [.trig a]
  log : Logged 1 s t
  pending : t.bus.pending = answerTo s [] a
  action : t.bus.action = some a
  control : t.bus.control = triggerPattern s.cfg a
  completion : t.bus.completion = false
  data : t.bus.data = s.bus.data
  divider : t.bus.divider = s.bus.divider
  enabled : t.bus.enabled = s.bus.enabled

theorem bcTrigger_result (a : Action) (s : State) : Triggered a s (bcTrigger a s) := by
  constructor
  case keeps => constructor <;> rfl
  case log => exact ⟨(logged_emit (.trig a) s).log⟩
  case pending =>
    rcases h : s.script with _ | _ <;> simp [bcTrigger, answerTo, nextResponse, h]
  all_goals rfl

/-! ### STEP (R150) -/

/-- The events of STEP when `r` answers its trigger. -/
def stepEvents (b : Nat) (r : Response) : List Event :=
  waitEvents b r (.pollDone false) (.pollDone true) ++ if timely b r then [.rdStatus r.status] else []

/-- Everything STEP does, from a state in which a trigger has just been answered. -/
structure Stepped (success : List Byte) (failure : Option Byte) (s t : State) (c : Cause) : Prop where
  cause : c = if timely s.cfg.timeoutBudget.toNat s.bus.pending then
    classify s.cfg s.bus.pending.status success failure else .timeout
  keeps : Keeps s t
  buf : t.buf = s.buf
  phase : t.phase = s.phase
  seq : t.seq = s.seq
  idx : t.idx = s.idx
  tmo : t.tmo = s.cfg.timeoutBudget - BitVec.ofNat 16 (missedPolls s.cfg.timeoutBudget.toNat s.bus.pending)
  stopUnconf : t.stopUnconf = s.stopUnconf
  rxdata : t.rxdata = s.rxdata
  script : t.script = s.script
  lastStatus : t.lastStatus =
    if timely s.cfg.timeoutBudget.toNat s.bus.pending then s.bus.pending.status else s.lastStatus
  trace : t.trace = s.trace ++ stepEvents s.cfg.timeoutBudget.toNat s.bus.pending
  log : Logged (stepEvents s.cfg.timeoutBudget.toNat s.bus.pending).length s t
  divider : t.bus.divider = s.bus.divider
  enabled : t.bus.enabled = s.bus.enabled
  data : timely s.cfg.timeoutBudget.toNat s.bus.pending = true →
    t.bus.data = if s.bus.action.any receives then s.bus.pending.data else s.bus.data

theorem stepProc_result (success : List Byte) (failure : Option Byte) (s : State) :
    Stepped success failure s (stepProc success failure s).2 (stepProc success failure s).1 := by
  obtain ⟨h1, h2, h3⟩ := waitLoop_bcDone s.cfg.timeoutBudget.toNat (setTmo s.cfg.timeoutBudget s)
  simp only [setTmo_bus] at h1 h3
  rcases hw : waitLoop bcDone s.cfg.timeoutBudget.toNat (setTmo s.cfg.timeoutBudget s) with ⟨ready, u⟩
  rw [hw] at h1 h2 h3
  change ready = _ at h1
  change Waited _ _ _ _ u at h2
  have hk : Keeps s u := (show Keeps s (setTmo s.cfg.timeoutBudget s) by constructor <;> rfl).trans h2.keeps
  have hl := h2.logged
  simp only [setTmo_bus] at hl
  have hl' : Logged (waitEvents s.cfg.timeoutBudget.toNat s.bus.pending (.pollDone false) (.pollDone true)).length
      s u := ⟨hl.log⟩
  cases ht : timely s.cfg.timeoutBudget.toNat s.bus.pending
  · have e : stepProc success failure s = (.timeout, u) := by
      simp only [stepProc, waitDone, wait, hw]
      rw [if_neg (by simp [h1, ht])]
    rw [e]
    exact
      { cause := by simp [ht], keeps := hk, buf := h2.buf, phase := h2.phase, seq := h2.seq, idx := h2.idx
        tmo := h2.tmo, stopUnconf := h2.stopUnconf, rxdata := h2.rxdata, script := h2.script
        lastStatus := by simpa [ht] using h2.lastStatus
        trace := by simpa [stepEvents, ht] using h2.trace
        log := by simpa [stepEvents, ht] using hl'
        divider := h2.divider, enabled := h2.enabled
        data := by simp [ht] }
  · obtain ⟨h4, h5⟩ := h3 ht
    have e : stepProc success failure s =
        (classify s.cfg s.bus.pending.status success failure,
          setLastStatus s.bus.pending.status (emit (.rdStatus s.bus.pending.status) u)) := by
      simp only [stepProc, waitDone, wait, hw]
      rw [if_pos (by simp [h1, ht])]
      simp only [bcStatus, emit_cfg, hk.cfg]
      change u.bus.status = _ at h4
      rw [h4]
    rw [e]
    exact
      { cause := by simp [ht]
        keeps := hk.trans (by constructor <;> rfl), buf := h2.buf, phase := h2.phase, seq := h2.seq
        idx := h2.idx, tmo := h2.tmo, stopUnconf := h2.stopUnconf, rxdata := h2.rxdata, script := h2.script
        lastStatus := by simp [ht]
        trace := by simp [stepEvents, ht, h2.trace]
        log := by
          have := hl'.trans (logged_emit (.rdStatus s.bus.pending.status) u) hk.busy hk.done
          simpa [stepEvents, ht] using (⟨this.log⟩ : Logged _ s
            (setLastStatus s.bus.pending.status (emit (.rdStatus s.bus.pending.status) u)))
        divider := h2.divider, enabled := h2.enabled
        data := fun _ => h5 }

/-! ### The primitives (R153 to R159) -/

/-- Everything a primitive does. -/
structure PrimResult (p : Primitive) (s t : State) (c : Cause) : Prop where
  cause : c = primCause s.cfg p (answer s p)
  keeps : Keeps s t
  buf : t.buf = s.buf
  seq : t.seq = s.seq
  idx : t.idx = s.idx
  phase : t.phase = if c = .none then p.phase else s.phase
  tmo : t.tmo = s.cfg.timeoutBudget - BitVec.ofNat 16 (missedPolls s.cfg.timeoutBudget.toNat (answer s p))
  stopUnconf : t.stopUnconf =
    if p = .stop then !timely s.cfg.timeoutBudget.toNat (answer s p) else s.stopUnconf
  rxdata : t.rxdata = if receives p.action = true ∧ c = .none then (answer s p).data else s.rxdata
  lastStatus : t.lastStatus =
    if p ≠ .stop ∧ timely s.cfg.timeoutBudget.toNat (answer s p) = true then (answer s p).status else s.lastStatus
  script : t.script = s.script.tail
  trace : t.trace = s.trace ++ primEvents s p
  log : Logged (primEvents s p).length s t
  divider : t.bus.divider = s.bus.divider
  enabled : t.bus.enabled = s.bus.enabled

/-- The byte a transmit loads, then its trigger. -/
theorem load_trigger (b : Byte) (a : Action) (s : State) :
    Triggered a (bcWriteData b s) (bcTrigger a (bcWriteData b s)) ∧ Keeps s (bcWriteData b s) ∧
      Logged 1 s (bcWriteData b s) ∧
      answerTo (bcWriteData b s) [] a = answerTo s [.wrData b] a := by
  refine ⟨bcTrigger_result _ _, by constructor <;> rfl,
    ⟨(logged_emit (.wrData b) s).log⟩, ?_⟩
  simp [answerTo, bcWriteData]

/-- A start or a transmit: the bytes loaded are in `s`, then the trigger to `u`, STEP to `v`, and the phase. -/
theorem primResult_of_step {p : Primitive} {s s' : State} (hstop : p ≠ .stop) (hrx : receives p.action = false)
    (hk : Keeps s s') (hbuf : s'.buf = s.buf) (hphase : s'.phase = s.phase) (hseq : s'.seq = s.seq)
    (hidx : s'.idx = s.idx) (hunc : s'.stopUnconf = s.stopUnconf) (hls : s'.lastStatus = s.lastStatus)
    (hrxd : s'.rxdata = s.rxdata) (hscript : s'.script = s.script) (htrace : s'.trace = s.trace ++ p.loads)
    (hlog : Logged p.loads.length s s') (hdiv : s'.bus.divider = s.bus.divider)
    (hen : s'.bus.enabled = s.bus.enabled) (hans : answerTo s' [] p.action = answer s p) :
    PrimResult p s
      (phaseIfNone p.phase (stepProc (p.success s.cfg) (p.failure s.cfg) (bcTrigger p.action s'))).2
      (phaseIfNone p.phase (stepProc (p.success s.cfg) (p.failure s.cfg) (bcTrigger p.action s'))).1 := by
  have h1 := bcTrigger_result p.action s'
  have h2 := stepProc_result (p.success s.cfg) (p.failure s.cfg) (bcTrigger p.action s')
  generalize bcTrigger p.action s' = u at h1 h2 ⊢
  rcases hst : stepProc (p.success s.cfg) (p.failure s.cfg) u with ⟨c, v⟩
  rw [hst] at h2
  change Stepped _ _ _ v c at h2
  have hcfg : u.cfg = s.cfg := h1.keeps.cfg.trans hk.cfg
  have hpend : u.bus.pending = answer s p := h1.pending.trans hans
  have hcause : c = primCause s.cfg p (answer s p) := by
    rw [h2.cause, hcfg, hpend, primCause, if_neg hstop]
  have hlogv : Logged (primEvents s p).length s v := by
    have h3 : Logged (p.loads.length + 1) s u := hlog.trans h1.log hk.busy hk.done
    have h4 := h3.trans h2.log (h1.keeps.busy.trans hk.busy) (h1.keeps.done.trans hk.done)
    rw [hcfg, hpend] at h4
    refine h4.cast ?_
    simp [primEvents, primAnswerEvents, hstop, hrx, stepEvents]
    omega
  have base : PrimResult p s (setPhase (if c = .none then p.phase else s.phase) v) c :=
    { cause := hcause
      keeps := (hk.trans h1.keeps).trans (h2.keeps.trans (by constructor <;> rfl))
      buf := h2.buf.trans (h1.buf.trans hbuf)
      seq := h2.seq.trans (h1.seq.trans hseq)
      idx := h2.idx.trans (h1.idx.trans hidx)
      phase := rfl
      tmo := by rw [setPhase_tmo, h2.tmo, hcfg, hpend]
      stopUnconf := by rw [setPhase_stopUnconf, h2.stopUnconf, h1.stopUnconf, hunc, if_neg hstop]
      rxdata := by simp [h2.rxdata, h1.rxdata, hrxd, hrx]
      lastStatus := by
        rw [setPhase_lastStatus, h2.lastStatus, hcfg, hpend, h1.lastStatus, hls]
        simp [hstop]
      script := by rw [setPhase_script, h2.script, h1.script, hscript]
      trace := by
        rw [setPhase_trace, h2.trace, h1.trace, htrace, hcfg, hpend]
        simp [primEvents, primAnswerEvents, hstop, hrx, stepEvents]
      log := ⟨hlogv.log⟩
      divider := h2.divider.trans (h1.divider.trans hdiv)
      enabled := h2.enabled.trans (h1.enabled.trans hen) }
  by_cases hc : c = .none
  · simpa [phaseIfNone, hc] using base
  · have : setPhase (if c = .none then p.phase else s.phase) v = v := by
      rw [if_neg hc, ← hphase, ← h1.phase, ← h2.phase]
      rfl
    rw [this] at base
    simpa [phaseIfNone, hc] using base

theorem primResult_of_receive {p : Primitive} {s : State} (hstop : p ≠ .stop) (hrx : receives p.action = true)
    (hload : p.loads = []) :
    PrimResult p s
      (phaseIfNone p.phase (takeByte (stepProc (p.success s.cfg) (p.failure s.cfg) (bcTrigger p.action s)))).2
      (phaseIfNone p.phase (takeByte (stepProc (p.success s.cfg) (p.failure s.cfg) (bcTrigger p.action s)))).1 := by
  have h1 := bcTrigger_result p.action s
  have h2 := stepProc_result (p.success s.cfg) (p.failure s.cfg) (bcTrigger p.action s)
  generalize bcTrigger p.action s = u at h1 h2 ⊢
  rcases hst : stepProc (p.success s.cfg) (p.failure s.cfg) u with ⟨c, v⟩
  rw [hst] at h2
  change Stepped _ _ _ v c at h2
  have hcfg : u.cfg = s.cfg := h1.keeps.cfg
  have hpend : u.bus.pending = answer s p := by rw [h1.pending, answer, hload]
  have hcause : c = primCause s.cfg p (answer s p) := by
    rw [h2.cause, hcfg, hpend, primCause, if_neg hstop]
  have hl := h1.log.trans h2.log h1.keeps.busy h1.keeps.done
  rw [hcfg, hpend] at hl
  have hk := h1.keeps.trans h2.keeps
  have htmo := h2.tmo
  have hls := h2.lastStatus
  have htr := h2.trace
  have hdata := h2.data
  rw [hcfg, hpend] at htmo hls htr hdata
  by_cases hc : c = .none
  · have ht : timely s.cfg.timeoutBudget.toNat (answer s p) = true := by
      by_contra hn
      rw [hcause, primCause, if_neg hstop, if_neg hn] at hc
      cases hc
    have hd : v.bus.data = (answer s p).data := by
      rw [hdata ht, h1.action]
      simp [hrx]
    have hl' := hl.trans (logged_emit (.rdData v.bus.data) v) hk.busy hk.done
    subst hc
    have e : phaseIfNone p.phase (takeByte (.none, v)) = (.none, setPhase p.phase (setRxdata v.bus.data
        (emit (.rdData v.bus.data) (setBus { v.bus with completion := false } v)))) := rfl
    rw [e]
    exact
      { cause := hcause
        keeps := hk.trans (by constructor <;> simp)
        buf := by simp [h2.buf, h1.buf]
        seq := by simp [h2.seq, h1.seq]
        idx := by simp [h2.idx, h1.idx]
        phase := by simp
        tmo := by simp [htmo]
        stopUnconf := by simp [h2.stopUnconf, h1.stopUnconf, hstop]
        rxdata := by simp [hd, hrx]
        lastStatus := by simp [hls, hstop, ht]
        script := by simp [h2.script, h1.script]
        trace := by
          simp [htr, h1.trace, primEvents, primAnswerEvents, hstop, hrx, stepEvents, hload, ht, ← hcause, hd]
        log := by
          refine Logged.cast ⟨hl'.log⟩ ?_
          simp [primEvents, primAnswerEvents, hstop, hrx, stepEvents, hload, ht, ← hcause]
          omega
        divider := by simp [h2.divider, h1.divider]
        enabled := by simp [h2.enabled, h1.enabled] }
  · have e : phaseIfNone p.phase (takeByte (c, v)) = (c, v) := by simp [phaseIfNone, takeByte, hc]
    have hc' := hcause ▸ hc
    rw [e]
    exact
      { cause := hcause
        keeps := hk
        buf := h2.buf.trans h1.buf
        seq := h2.seq.trans h1.seq
        idx := h2.idx.trans h1.idx
        phase := by simp [h2.phase, h1.phase, hc]
        tmo := htmo
        stopUnconf := by simp [h2.stopUnconf, h1.stopUnconf, hstop]
        rxdata := by simp [h2.rxdata, h1.rxdata, hc]
        lastStatus := by simp [hls, hstop, h1.lastStatus]
        script := h2.script.trans h1.script
        trace := by
          simp [htr, h1.trace, primEvents, primAnswerEvents, hstop, hrx, stepEvents, hload, hc']
        log := by
          refine Logged.cast ⟨hl.log⟩ ?_
          simp [primEvents, primAnswerEvents, hstop, hrx, stepEvents, hload, hc']
          omega
        divider := h2.divider.trans h1.divider
        enabled := h2.enabled.trans h1.enabled }

theorem pStop_result (s : State) : PrimResult .stop s (pStop s).2 (pStop s).1 := by
  have h1 := bcTrigger_result .stop s
  obtain ⟨h2, h3⟩ := waitLoop_bcStopReleased s.cfg.timeoutBudget.toNat
    (setTmo s.cfg.timeoutBudget (setPhase .stopIssued (bcTrigger .stop s)))
  have hcfg : (bcTrigger .stop s).cfg = s.cfg := rfl
  rcases hw : waitLoop bcStopReleased s.cfg.timeoutBudget.toNat
    (setTmo s.cfg.timeoutBudget (setPhase .stopIssued (bcTrigger .stop s))) with ⟨released, v⟩
  rw [hw] at h2 h3
  have e : pStop s = (.none, setPhase .idle (setStopUnconf (!released) v)) := by
    simp only [pStop, waitStop, wait, setPhase_cfg, hcfg, hw]
  have hlw := h3.logged
  generalize bcTrigger .stop s = u at h1 h2 h3 hlw
  have hpend : u.bus.pending = answer s .stop := h1.pending
  simp only [setTmo_bus, setPhase_bus, hpend] at h2 hlw
  have hl : Logged _ s v := h1.log.trans
    (⟨hlw.log⟩ : Logged _ u v) h1.keeps.busy h1.keeps.done
  have hk : Keeps s v := h1.keeps.trans
    ((show Keeps u (setTmo s.cfg.timeoutBudget (setPhase .stopIssued u)) by constructor <;> rfl).trans h3.keeps)
  have htr := h3.trace
  have htmo := h3.tmo
  simp only [setTmo_bus, setPhase_bus, hpend, setTmo_trace, setPhase_trace, setTmo_tmo] at htr htmo
  rw [e]
  exact
    { cause := rfl
      keeps := hk.trans (by constructor <;> rfl)
      buf := h3.buf.trans h1.buf
      seq := h3.seq.trans h1.seq
      idx := h3.idx.trans h1.idx
      phase := rfl
      tmo := htmo
      stopUnconf := by simp [show released = _ from h2]
      rxdata := by
        rw [if_neg (by simp [receives, Primitive.action])]
        exact h3.rxdata.trans h1.rxdata
      lastStatus := by
        rw [if_neg (by simp)]
        exact h3.lastStatus.trans h1.lastStatus
      script := h3.script.trans h1.script
      trace := by simp [htr, h1.trace, primEvents, primAnswerEvents, Primitive.loads, Primitive.action]
      log := by
        refine Logged.cast ⟨hl.log⟩ ?_
        simp [primEvents, primAnswerEvents, Primitive.loads]
        omega
      divider := h3.divider.trans h1.divider
      enabled := h3.enabled.trans h1.enabled }

theorem pAddr_eq (a : BitVec 7) (d : Dir) (s : State) :
    pAddr a d s = phaseIfNone .addressAcked (stepProc ((Primitive.addr a d).success s.cfg)
      ((Primitive.addr a d).failure s.cfg) (bcTrigger .transmit (bcWriteData (addrByte a d) s))) := by
  cases d <;> rfl

/-- Everything a primitive does (R153 to R159), for all seven. -/
theorem runPrimitive_result (p : Primitive) (s : State) :
    PrimResult p s (runPrimitive p s).2 (runPrimitive p s).1 := by
  cases p with
  | start =>
    exact primResult_of_step (p := .start) (by simp) rfl (Keeps.refl s) rfl rfl rfl rfl rfl rfl rfl rfl
      (by simp [Primitive.loads]) (Logged.refl s) rfl rfl rfl
  | rstart =>
    exact primResult_of_step (p := .rstart) (by simp) rfl (Keeps.refl s) rfl rfl rfl rfl rfl rfl rfl rfl
      (by simp [Primitive.loads]) (Logged.refl s) rfl rfl rfl
  | addr a d =>
    obtain ⟨-, hk, hl, ha⟩ := load_trigger (addrByte a d) .transmit s
    have := primResult_of_step (p := .addr a d) (s := s) (by simp) rfl hk rfl rfl rfl rfl rfl rfl rfl rfl rfl
      hl rfl rfl ha
    simpa only [runPrimitive, pAddr_eq, Primitive.phase, Primitive.action] using this
  | txdata b =>
    obtain ⟨-, hk, hl, ha⟩ := load_trigger b .transmit s
    exact primResult_of_step (p := .txdata b) (by simp) rfl hk rfl rfl rfl rfl rfl rfl rfl rfl rfl hl rfl rfl ha
  | rxack => exact primResult_of_receive (p := .rxack) (by simp) rfl rfl
  | rxnack => exact primResult_of_receive (p := .rxnack) (by simp) rfl rfl
  | stop => exact pStop_result s

end Sys2Proof.Machine
end

