-- ==== Sys2Proof/Laws/Orchestrator.lean ====
section
/-! SUPPORT. One guarded step of an operation, said once, and the loop of a data phase (43_orchestrator R182 to R186). -/

namespace Sys2Proof.Machine

/-! ### Guarded steps -/

theorem runStep_failed {q : Seq} {p : Proc} {r : Cause × State} (h : r.1 ≠ .none) : runStep q p r = r := by
  simp [runStep, h]

theorem runStep_cause {q : Seq} {p : Proc} {s : State} :
    (runStep q p (.none, s)).1 = (p (setSeq q s)).1 := by
  simp [runStep]

/-- After a guarded step the state is the step's, but for SEQ (60_exceptions R214). -/
theorem runStep_state {q : Seq} {p : Proc} {s : State} :
    ∃ q', (runStep q p (.none, s)).2 = setSeq q' (p (setSeq q s)).2 := by
  rcases e : p (setSeq q s) with ⟨c, t⟩
  by_cases h : c = .none
  · exact ⟨t.seq, by simp only [runStep, e, h, if_true]; rfl⟩
  · exact ⟨.stop, by simp only [runStep, e, h, if_true, if_false, abortEntry]⟩

/-! ### Data phases -/

/-- What a guarded pass keeps, the whole loop keeps. -/
theorem dataLoop_induct {one : Proc} {P : Cause × State → Prop}
    (h : ∀ r, r.1 = .none → r.2.idx < r.2.len → P r → P (runStep .data one r)) (n : Nat) :
    ∀ r, P r → P (dataLoop one n r) := by
  induction n with
  | zero => exact fun r hr => hr
  | succ n ih =>
    intro r hr
    simp only [dataLoop]
    split
    · rename_i hc
      exact ih _ (h r hc.1 hc.2 hr)
    · exact hr

theorem dataLoop_failed {one : Proc} {n : Nat} {r : Cause × State} (h : r.1 ≠ .none) : dataLoop one n r = r := by
  cases n <;> simp [dataLoop, h]

/-- Everything one pass of the send loop does (R183): the step of the byte `BUF[IDX]`, and IDX. -/
theorem sendOne_result (s : State) :
    ∃ t, PrimResult (.txdata (readBuf s s.idx)) (memRead s.idx s).2 t (sendOne s).1 ∧
      (sendOne s).2 = if (sendOne s).1 = .none then incIdx t else t := by
  exact ⟨_, runPrimitive_result (.txdata (readBuf s s.idx)) (memRead s.idx s).2, rfl⟩

/-- The receive of one pass of RECEIVE_ALL (R184). -/
def receivePrimitive (s : State) : Primitive :=
  if s.idx.toNat + 1 < s.len.toNat then .rxack else .rxnack

/-- Everything one pass of RECEIVE_ALL does (R184): the receive, the store of a received byte, and IDX. -/
theorem receiveOne_result (s : State) :
    ∃ t, PrimResult (receivePrimitive s) s t (receiveOne s).1 ∧
      (receiveOne s).2 = if (receiveOne s).1 = .none then incIdx (memWrite s.idx t.rxdata t) else t := by
  have h := runPrimitive_result (receivePrimitive s) s
  rcases e : runPrimitive (receivePrimitive s) s with ⟨c, t⟩
  rw [e] at h
  change PrimResult _ s t c at h
  have hr : receiveOne s = if c = .none then (c, incIdx (memWrite s.idx t.rxdata t)) else (c, t) := by
    unfold receivePrimitive at e
    unfold receiveOne
    split at e <;> rename_i hl
    · change pRxack s = (c, t) at e
      rw [if_pos hl, e]
      by_cases hc : c = .none <;> simp [hc, h.idx]
    · change pRxnack s = (c, t) at e
      rw [if_neg hl, e]
      by_cases hc : c = .none <;> simp [hc, h.idx]
  refine ⟨t, ?_, ?_⟩ <;> rw [hr] <;> by_cases hc : c = .none <;> simp_all

/-! ### A guarded step, as a step of a play -/

/-- A run of an operation's body, from the accepted state `a`, is where the play `p` is. -/
structure Tracks (a : State) (p : Play) (r : Cause × State) : Prop where
  cause : r.1 = p.cause
  keeps : Keeps a r.2
  trace : r.2.trace = p.trace
  script : r.2.script = p.script
  lastStatus : r.2.lastStatus = p.lastStatus
  idx : r.2.idx.toNat = p.counted
  stopUnconf : r.2.stopUnconf = a.stopUnconf
  rxdata : r.2.rxdata = (p.received.getLast?).getD a.rxdata
  buf : ∀ j : Byte, readBuf r.2 j = (p.received[j.toNat]?).getD (readBuf a j)

/-- The answer the trigger of the next step `m` of a play gets. -/
def moveAnswer (p : Play) (m : Move) : Response :=
  p.script.headD (Config.responder (p.trace ++ m.before ++ m.primitive.loads ++ [.trig m.primitive.action]))

/-- What the procedure `one` of a step `m` does in state `s`: the BUF access before, the primitive, and, if that
succeeded, the BUF access after and the count; `n` bytes have been received before. -/
structure Performs (one : Proc) (m : Move) (n : Nat) (s : State) : Prop where
  notStop : m.primitive ≠ .stop
  run : ∃ m₀ t, PrimResult m.primitive m₀ t (one s).1 ∧ Keeps s m₀ ∧ m₀.trace = s.trace ++ m.before ∧
    m₀.script = s.script ∧ m₀.lastStatus = s.lastStatus ∧ m₀.idx = s.idx ∧ m₀.rxdata = s.rxdata ∧
    m₀.stopUnconf = s.stopUnconf ∧ m₀.buf = s.buf ∧
    Keeps t (one s).2 ∧ (one s).2.script = t.script ∧ (one s).2.lastStatus = t.lastStatus ∧
    (one s).2.rxdata = t.rxdata ∧ (one s).2.stopUnconf = t.stopUnconf ∧
    (one s).2.trace = t.trace ++ (if (one s).1 = .none then m.after (answer m₀ m.primitive) else []) ∧
    (one s).2.idx.toNat = t.idx.toNat + (if (one s).1 = .none ∧ m.counts = true then 1 else 0) ∧
    ∀ j : Byte, readBuf (one s).2 j =
      if (one s).1 = .none ∧ receives m.primitive.action = true ∧ j.toNat = n then (answer m₀ m.primitive).data
      else readBuf t j

theorem tracks_move {a : State} {p : Play} {r : Cause × State} {q : Seq} {one : Proc} {m : Move}
    (h : Tracks a p r) (hone : r.1 = .none → Performs one m p.received.length (setSeq q r.2)) :
    Tracks a (playMove a.cfg p m) (runStep q one r) := by
  rcases r with ⟨c, s⟩
  by_cases hc : c = .none
  · subst hc
    obtain ⟨hstop, m₀, t, R, hk, htr, hsc, hls, hix, hrx, hun, hbf, vk, vsc, vls, vrx, vun, vtr, vix, vbf⟩ :=
      hone rfl
    obtain ⟨q', hq'⟩ := runStep_state (q := q) (p := one) (s := s)
    have hcause := runStep_cause (q := q) (p := one) (s := s)
    rcases hX : runStep q one (.none, s) with ⟨c', u⟩
    rw [hX] at hq' hcause
    change u = _ at hq'
    change c' = _ at hcause
    rcases hY : one (setSeq q s) with ⟨c₁, v⟩
    rw [hY] at hq' hcause R vk vsc vls vrx vun vtr vix vbf
    change PrimResult _ _ _ c₁ at R
    subst hq' hcause
    dsimp only at vk vsc vls vrx vun vtr vix vbf
    simp only [setSeq_trace, setSeq_script, setSeq_lastStatus, setSeq_idx, setSeq_rxdata, setSeq_stopUnconf, setSeq_buf] at htr hsc hls hix hrx hun hbf
    have hcfg : m₀.cfg = a.cfg := hk.cfg.trans h.keeps.cfg
    have ha : answer m₀ m.primitive = moveAnswer p m := by
      have h1 := h.trace
      have h2 := h.script
      dsimp only at h1 h2
      unfold answer answerTo moveAnswer
      rw [hsc, htr, h1, h2]
      cases p.script <;> rfl
    have hp : p.cause = .none := h.cause.symm
    obtain ⟨Rc, Rk, Rbuf, -, Ridx, -, -, Run, Rrx, Rls, Rsc, Rtr, -⟩ := R
    have hev : primEvents m₀ m.primitive = m.primitive.loads ++ [.trig m.primitive.action] ++
        primAnswerEvents a.cfg m.primitive (moveAnswer p m) := by rw [primEvents, ha, hcfg]
    rw [ha, hcfg] at Rc Run Rls
    rw [ha] at Rrx
    rw [ha] at vtr vbf
    rw [hev] at Rtr
    have hplay : playMove a.cfg p m =
        { cause := c', executed := p.executed + 1
          counted := if c' = .none ∧ m.counts = true then p.counted + 1 else p.counted
          received := if c' = .none ∧ receives m.primitive.action = true then p.received ++ [(moveAnswer p m).data]
            else p.received
          lastStatus := if m.primitive ≠ .stop ∧ timely a.cfg.timeoutBudget.toNat (moveAnswer p m) = true then
            (moveAnswer p m).status else p.lastStatus
          trace := p.trace ++ m.before ++ m.primitive.loads ++ [.trig m.primitive.action] ++
            primAnswerEvents a.cfg m.primitive (moveAnswer p m) ++ (if c' = .none then m.after (moveAnswer p m) else [])
          script := p.script.tail } := by
      rw [Rc]
      rw [playMove, if_neg (by simp [hp])]
      rfl
    rw [hplay]
    refine ⟨rfl, ?_, ?_, ?_, ?_, ?_, ?_, ?_, ?_⟩
    · exact h.keeps.trans ((show Keeps s (setSeq q s) by constructor <;> rfl).trans
        (hk.trans (Rk.trans (vk.trans (by constructor <;> rfl)))))
    · have h1 := h.trace
      dsimp only at h1
      simp [vtr, Rtr, htr, h1]
    · have h1 := h.script
      dsimp only at h1
      simp [vsc, Rsc, hsc, h1]
    · have h1 := h.lastStatus
      dsimp only at h1
      simp [vls, Rls, hls, h1]
    · have h1 := h.idx
      dsimp only at h1
      simp only [setSeq_idx, vix, Ridx, hix, h1]
      split <;> rfl
    · have h1 := h.stopUnconf
      dsimp only at h1
      simp [vun, Run, hun, hstop, h1]
    · have h1 := h.rxdata
      dsimp only at h1
      by_cases hr : receives m.primitive.action = true ∧ c' = .none
      · simp [vrx, Rrx, hr]
      · have hr' : ¬ (c' = .none ∧ receives m.primitive.action = true) := fun hh => hr ⟨hh.2, hh.1⟩
        simp only [setSeq_rxdata, vrx, Rrx, if_neg hr, if_neg hr', hrx, h1]
    · intro j
      have h1 := h.buf j
      dsimp only at h1
      have h2 : readBuf t j = readBuf s j := readBuf_congr (Rbuf.trans hbf) (Rk.resets.trans hk.resets) j
      rw [show readBuf (setSeq q' v) j = readBuf v j from rfl, vbf, h2, h1]
      by_cases hr : c' = .none ∧ receives m.primitive.action = true
      · rw [if_pos hr]
        by_cases hj : j.toNat = p.received.length
        · simp [hr, hj]
        · rw [if_neg (by simp [hj])]
          rcases Nat.lt_or_gt_of_ne hj with hlt | hgt
          · rw [List.getElem?_append_left hlt]
          · rw [List.getElem?_eq_none (by omega), List.getElem?_eq_none (by simp; omega)]
      · rw [if_neg hr, if_neg (fun hh => hr ⟨hh.1, hh.2.1⟩)]
  · have hp : p.cause ≠ .none := by rw [← h.cause]; exact hc
    rw [runStep_failed hc, playMove, if_pos hp]
    exact h

theorem performs_prim {one : Proc} {p : Primitive} {s : State} (n : Nat) (h : one s = runPrimitive p s)
    (hstop : p ≠ .stop) (hrx : receives p.action = false) : Performs one (.prim p) n s := by
  refine ⟨hstop, s, (one s).2, h ▸ runPrimitive_result p s, Keeps.refl s, by simp [Move.before], rfl, rfl, rfl, rfl,
    rfl, rfl, Keeps.refl _, rfl, rfl, rfl, rfl, by simp [Move.after], by simp [Move.counts], ?_⟩
  intro j
  simp [Move.primitive, hrx]

theorem performs_send {s : State} {b : Byte} (n : Nat) (hlt : s.idx < s.len) (hb : readBuf s s.idx = b) :
    Performs sendOne (.send s.idx b) n s := by
  subst hb
  obtain ⟨t, R, hv⟩ := sendOne_result s
  refine ⟨by simp [Move.primitive], (memRead s.idx s).2, t, R, by constructor <;> rfl, rfl, rfl, rfl, rfl, rfl, rfl,
    rfl, ?_⟩
  have hidx : t.idx = s.idx := R.idx
  have hinc : (s.idx + 1).toNat = s.idx.toNat + 1 := by
    have h1 := s.len.isLt
    have h2 : s.idx.toNat < s.len.toNat := hlt
    have h3 : (1 : Byte).toNat = 1 := rfl
    rw [BitVec.toNat_add, h3]
    omega
  rw [hv]
  by_cases hc : (sendOne s).1 = .none
  · simp only [hc, if_true]
    refine ⟨by constructor <;> rfl, rfl, rfl, rfl, rfl, by simp [Move.after], by rw [if_pos ⟨trivial, rfl⟩, incIdx_idx, hidx, hinc], ?_⟩
    intro j
    simp [Move.primitive, Primitive.action, receives]
    rfl
  · simp only [hc, if_false]
    exact ⟨Keeps.refl t, by simp⟩

theorem performs_receive {s : State} {last : Bool} (hlt : s.idx < s.len)
    (hl : last = decide (s.idx.toNat + 1 = s.len.toNat)) :
    Performs receiveOne (.receive s.idx last) s.idx.toNat s := by
  obtain ⟨t, R, hv⟩ := receiveOne_result s
  have hlt' : s.idx.toNat < s.len.toNat := hlt
  have hp : receivePrimitive s = Move.primitive (.receive s.idx last) := by
    simp only [receivePrimitive, Move.primitive, hl]
    split <;> split <;> simp_all
    omega
  rw [hp] at R
  have hrx : receives (Move.primitive (.receive s.idx last)).action = true := by
    cases last <;> rfl
  have hstop : Move.primitive (.receive s.idx last) ≠ .stop := by
    cases last <;> simp [Move.primitive]
  refine ⟨hstop, s, t, R, Keeps.refl s, by simp [Move.before], rfl, rfl, rfl, rfl, rfl, rfl, ?_⟩
  have hidx : t.idx = s.idx := R.idx
  have hinc : (s.idx + 1).toNat = s.idx.toNat + 1 := by
    have h1 := s.len.isLt
    have h3 : (1 : Byte).toNat = 1 := rfl
    rw [BitVec.toNat_add, h3]
    omega
  have hrd := R.rxdata
  rw [hv]
  by_cases hc : (receiveOne s).1 = .none
  · rw [if_pos ⟨hrx, hc⟩] at hrd
    simp only [hc, if_true]
    refine ⟨by constructor <;> rfl, rfl, rfl, rfl, rfl, by simp [Move.after, memWrite, hrd],
      by rw [if_pos ⟨trivial, rfl⟩, incIdx_idx]; exact hidx ▸ hinc, ?_⟩
    intro j
    rw [show readBuf (incIdx (memWrite s.idx t.rxdata t)) j = readBuf (writeBuf s.idx t.rxdata t) j from rfl]
    by_cases hj : j.toNat = s.idx.toNat
    · have : j = s.idx := BitVec.eq_of_toNat_eq hj
      subst this
      simp [readBuf_writeBuf_self, hrx, hrd]
    · rw [readBuf_writeBuf_of_ne _ _ (fun hh => hj (by rw [hh])), if_neg (by simp [hj])]
  · simp only [hc, if_false]
    exact ⟨Keeps.refl t, by simp⟩

/-! ### A whole operation, as the play of its steps -/

theorem playMove_failed {cfg : Cfg} {p : Play} {m : Move} (h : p.cause ≠ .none) : playMove cfg p m = p :=
  if_pos h

theorem foldl_failed {cfg : Cfg} {p : Play} (h : p.cause ≠ .none) (ms : List Move) :
    ms.foldl (playMove cfg) p = p := by
  induction ms with
  | nil => rfl
  | cons m ms ih => rw [List.foldl_cons, playMove_failed h, ih]

/-- A data phase plays its list of steps: pass `k` is the step `mk k`, as long as `I k` holds of the play. -/
theorem tracks_loop {a : State} {one : Proc} {mk : Nat → Move} {I : Nat → Play → Prop}
    (hcounts : ∀ k, (mk k).counts = true)
    (hstep : ∀ k p s, k < a.len.toNat → Tracks a p (.none, s) → I k p → s.idx.toNat = k →
      Performs one (mk k) p.received.length (setSeq .data s))
    (hI : ∀ k p, I k p → p.cause = .none → (playMove a.cfg p (mk k)).cause = .none → I (k + 1) (playMove a.cfg p (mk k))) :
    ∀ m k p r, k + m = a.len.toNat → Tracks a p r → (p.cause = .none → p.counted = k ∧ I k p) →
      Tracks a (((List.range' k m).map mk).foldl (playMove a.cfg) p) (dataLoop one m r) := by
  intro m
  induction m with
  | zero => exact fun k p r _ h _ => h
  | succ m ih =>
    intro k p r hk h hp
    by_cases hc : p.cause = .none
    · obtain ⟨hcnt, hIk⟩ := hp hc
      rcases r with ⟨c, s⟩
      have hr : c = .none := h.cause.trans hc
      subst hr
      have hix : s.idx.toNat = k := h.idx.trans hcnt
      have hlen : s.len = a.len := h.keeps.len
      have hlt : s.idx < s.len := by
        rw [BitVec.lt_def, hix, hlen]
        omega
      have hnext := tracks_move (q := .data) h (fun _ => hstep k p s (by omega) h hIk hix)
      rw [List.range'_succ, List.map_cons, List.foldl_cons, dataLoop, if_pos ⟨rfl, hlt⟩]
      refine ih (k + 1) _ _ (by omega) hnext fun hn => ⟨?_, hI k p hIk hc hn⟩
      rw [playMove, if_neg (by simp [hc])] at hn ⊢
      dsimp only at hn ⊢
      rw [if_pos ⟨hn, hcounts k⟩, hcnt]
    · rw [foldl_failed hc, dataLoop_failed (by rw [h.cause]; exact hc)]
      exact h

/-- The send loop plays the sends of `BUF[0..LEN-1]`. -/
theorem tracks_sendAll {a s₀ : State} {p : Play} {r : Cause × State} (h : Tracks a p r) (hp : p.counted = 0)
    (hrec : p.received = []) (hbuf : ∀ j, readBuf a j = readBuf s₀ j) :
    Tracks a ((sendMoves s₀ a.len).foldl (playMove a.cfg) p) (sendAll r) := by
  have hix : r.2.idx.toNat = 0 := h.idx.trans hp
  rw [sendAll, sendMoves, List.range_eq_range', h.keeps.len, hix]
  refine tracks_loop (I := fun _ p => p.received = []) (fun _ => rfl) ?_ ?_ _ _ _ _ (by omega) h fun _ => ⟨hp, hrec⟩
  · intro k p s hk ht hI hs
    have hi : BitVec.ofNat 8 k = (setSeq .data s).idx := by rw [← hs]; simp
    rw [hi]
    refine performs_send _ ?_ ?_
    · rw [setSeq_idx, setSeq_len, BitVec.lt_def, hs, ht.keeps.len]; exact hk
    · rw [show readBuf (setSeq .data s) (setSeq .data s).idx = readBuf s s.idx from rfl]
      have := ht.buf s.idx
      rw [hI] at this
      simpa [hbuf] using this
  · intro k p hI hc hn
    rw [playMove, if_neg (by simp [hc])]
    simp [Move.primitive, Primitive.action, receives, hI]

/-- RECEIVE_ALL plays the receives of LEN bytes. -/
theorem tracks_receiveAll {a : State} {p : Play} {r : Cause × State} (h : Tracks a p r) (hp : p.counted = 0)
    (hrec : p.received = []) :
    Tracks a ((receiveMoves a.len).foldl (playMove a.cfg) p) (receiveAll r) := by
  have hix : r.2.idx.toNat = 0 := h.idx.trans hp
  rw [receiveAll, receiveMoves, List.range_eq_range', h.keeps.len, hix]
  refine tracks_loop (I := fun k p => p.received.length = k) (fun _ => rfl) ?_ ?_ _ _ _ _ (by omega) h
    fun _ => ⟨hp, by simp [hrec]⟩
  · intro k p s hk ht hI hs
    have hi : BitVec.ofNat 8 k = (setSeq .data s).idx := by rw [← hs]; simp
    have hlen : (setSeq .data s).len = a.len := ht.keeps.len
    have := performs_receive (s := setSeq .data s) (last := decide (k + 1 = a.len.toNat))
      (by rw [hlen, BitVec.lt_def, setSeq_idx, hs]; exact hk) (by rw [hlen, setSeq_idx, hs])
    rw [setSeq_idx, hs] at this
    rw [hi, hI, setSeq_idx]
    exact this
  · intro k p hI hc hn
    rw [playMove, if_neg (by simp [hc])] at hn ⊢
    dsimp only at hn ⊢
    rw [if_pos ⟨hn, by dsimp only [Move.primitive]; split <;> rfl⟩]
    simp [hI]

/-- A step that moves no data byte. -/
theorem tracks_prim {a : State} {p : Play} {r : Cause × State} {q : Seq} {one : Proc} {pr : Primitive}
    (h : Tracks a p r) (hone : Keeps a r.2 → one (setSeq q r.2) = runPrimitive pr (setSeq q r.2)) (hstop : pr ≠ .stop)
    (hrx : receives pr.action = false) :
    Tracks a (playMove a.cfg p (.prim pr)) (runStep q one r) ∧
      (playMove a.cfg p (.prim pr)).counted = p.counted ∧ (playMove a.cfg p (.prim pr)).received = p.received := by
  refine ⟨tracks_move h fun _ => performs_prim _ (hone h.keeps) hstop hrx, ?_⟩
  by_cases hc : p.cause = .none
  · rw [playMove, if_neg (by simp [hc])]
    simp [Move.counts, Move.primitive, hrx]
  · rw [playMove_failed hc]
    exact ⟨rfl, rfl⟩

theorem tracks_accept (i : Instr) (s : State) :
    Tracks (accept i.fields s) ⟨.none, 0, 0, [], s.lastStatus, s.trace, s.script⟩ (.none, accept i.fields s) := by
  constructor
  case keeps => exact Keeps.refl _
  case buf => intro j; simp
  all_goals rfl

/-- Every operation plays its list of steps, then stops and completes (R182 to R186). -/
theorem operation_result (i : Instr) (s : State) (h : isOperation i = true) :
    ∃ r, exec i s = .next (stopAndComplete r) ∧ Tracks (accept i.fields s) (play s (bodyMoves s i)) r := by
  have h0 := tracks_accept i s
  have hb : ∀ j, readBuf (accept i.fields s) j = readBuf s j := fun _ => rfl
  cases i <;> simp only [isOperation, Bool.false_eq_true] at h
  · rename_i a n
    refine ⟨_, rfl, ?_⟩
    obtain ⟨h1, c1, r1⟩ := tracks_prim (q := .start) (one := pStart) (pr := .start) h0 (fun _ => rfl) (by simp) rfl
    obtain ⟨h2, c2, r2⟩ := tracks_prim (q := .addrW) (one := fun s => pAddr s.addr7 .write s)
      (pr := .addr a .write) h1 (fun k => by rw [setSeq_addr7, k.addr7]; rfl) (by simp) rfl
    have := tracks_sendAll h2 (c2.trans c1) (r2.trans r1) hb
    rw [play, bodyMoves, List.foldl_append]
    exact this
  · rename_i a n
    refine ⟨_, rfl, ?_⟩
    obtain ⟨h1, c1, r1⟩ := tracks_prim (q := .start) (one := pStart) (pr := .start) h0 (fun _ => rfl) (by simp) rfl
    obtain ⟨h2, c2, r2⟩ := tracks_prim (q := .addrR) (one := fun s => pAddr s.addr7 .read s)
      (pr := .addr a .read) h1 (fun k => by rw [setSeq_addr7, k.addr7]; rfl) (by simp) rfl
    have := tracks_receiveAll h2 (c2.trans c1) (r2.trans r1)
    rw [play, bodyMoves, List.foldl_append]
    exact this
  · rename_i a b n
    refine ⟨_, rfl, ?_⟩
    obtain ⟨h1, c1, r1⟩ := tracks_prim (q := .start) (one := pStart) (pr := .start) h0 (fun _ => rfl) (by simp) rfl
    obtain ⟨h2, c2, r2⟩ := tracks_prim (q := .addrW) (one := fun s => pAddr s.addr7 .write s)
      (pr := .addr a .write) h1 (fun k => by rw [setSeq_addr7, k.addr7]; rfl) (by simp) rfl
    obtain ⟨h3, c3, r3⟩ := tracks_prim (q := .reg) (one := fun s => pTxdata s.byte s)
      (pr := .txdata b) h2 (fun k => by rw [setSeq_byte, k.byte]; rfl) (by simp) rfl
    have := tracks_sendAll h3 (c3.trans (c2.trans c1)) (r3.trans (r2.trans r1)) hb
    rw [play, bodyMoves, List.foldl_append]
    exact this
  · rename_i a b n
    refine ⟨_, rfl, ?_⟩
    obtain ⟨h1, c1, r1⟩ := tracks_prim (q := .start) (one := pStart) (pr := .start) h0 (fun _ => rfl) (by simp) rfl
    obtain ⟨h2, c2, r2⟩ := tracks_prim (q := .addrW) (one := fun s => pAddr s.addr7 .write s)
      (pr := .addr a .write) h1 (fun k => by rw [setSeq_addr7, k.addr7]; rfl) (by simp) rfl
    obtain ⟨h3, c3, r3⟩ := tracks_prim (q := .reg) (one := fun s => pTxdata s.byte s)
      (pr := .txdata b) h2 (fun k => by rw [setSeq_byte, k.byte]; rfl) (by simp) rfl
    obtain ⟨h4, c4, r4⟩ := tracks_prim (q := .rstart) (one := pRstart) (pr := .rstart) h3 (fun _ => rfl) (by simp) rfl
    obtain ⟨h5, c5, r5⟩ := tracks_prim (q := .addrR) (one := fun s => pAddr s.addr7 .read s)
      (pr := .addr a .read) h4 (fun k => by rw [setSeq_addr7, k.addr7]; rfl) (by simp) rfl
    have := tracks_receiveAll h5 (c5.trans (c4.trans (c3.trans (c2.trans c1))))
      (r5.trans (r4.trans (r3.trans (r2.trans r1))))
    rw [play, bodyMoves, List.foldl_append]
    exact this

/-! ### No command stops -/

/-- Every command completes (41_timeout_guard R146): `exec` always answers a next state. -/
theorem exec_next (i : Instr) (s : State) : ∃ t, exec i s = .next t := by
  cases i <;> exact ⟨_, rfl⟩

end Sys2Proof.Machine
end

