-- ==== Sys2Proof/Laws/PerInstr.lean ====
section
/-! SUPPORT. Statements for all commands, one lemma per constructor. -/

namespace Sys2Proof.Laws.EncodesWellFormed

/-- The fields of a command break no must-be-zero rule (30_encoding R95): no operand value can make an ill-formed
command. -/
def Statement (i : Instr) : Prop := i.WellFormed

theorem init : Statement .init := by unfold Statement; decide
theorem start : Statement .start := by unfold Statement; decide
theorem rstart : Statement .rstart := by unfold Statement; decide
theorem addr (d : Dir) (a : BitVec 7) : Statement (.addr d a) := by
  simp [Statement, Instr.WellFormed, Instr.fields, Cmd32.wellFormed, Used.ofOp, Cmd32.MustBeZero, zeroUnless]
theorem txdata (b : Byte) : Statement (.txdata b) := by
  simp [Statement, Instr.WellFormed, Instr.fields, Cmd32.wellFormed, Used.ofOp, Cmd32.MustBeZero, zeroUnless]
theorem rxack : Statement .rxack := by unfold Statement; decide
theorem rxnack : Statement .rxnack := by unfold Statement; decide
theorem stop : Statement .stop := by unfold Statement; decide
theorem bwrite (a : BitVec 7) (n : Byte) : Statement (.bwrite a n) := by
  simp [Statement, Instr.WellFormed, Instr.fields, Cmd32.wellFormed, Used.ofOp, Cmd32.MustBeZero, zeroUnless]
theorem bread (a : BitVec 7) (n : Byte) : Statement (.bread a n) := by
  simp [Statement, Instr.WellFormed, Instr.fields, Cmd32.wellFormed, Used.ofOp, Cmd32.MustBeZero, zeroUnless]
theorem wreg (a : BitVec 7) (b n : Byte) : Statement (.wreg a b n) := by
  simp [Statement, Instr.WellFormed, Instr.fields, Cmd32.wellFormed, Used.ofOp, Cmd32.MustBeZero, zeroUnless]
theorem rreg (a : BitVec 7) (b n : Byte) : Statement (.rreg a b n) := by
  simp [Statement, Instr.WellFormed, Instr.fields, Cmd32.wellFormed, Used.ofOp, Cmd32.MustBeZero, zeroUnless]

end Sys2Proof.Laws.EncodesWellFormed
end

