-- ==== Sys2Proof/Laws/Step.lean ====
section
/-! SUPPORT. What running a command and taking a step can do, said once. -/

namespace Sys2Proof.Machine

/-! ### The configuration -/

theorem Config.cfg_wellFormed : Config.cfg.WellFormed := by
  unfold Config.cfg
  split
  · assumption
  · decide

/-! ### Running a command -/

/-- What every part of a running command does to what `a` was at acceptance. -/
structure Runs (a s : State) : Prop where
  keeps : Keeps a s
  idx : a.idx ≤ a.len → s.idx ≤ s.len
  phase : a.phase ≠ .stopIssued → s.phase ≠ .stopIssued
  buf : Memory.wf a.buf → Memory.wf s.buf
  log : ∃ new, s.trace = a.trace ++ new ∧ Logged new.length a s
  divider : s.bus.divider = a.bus.divider
  enabled : s.bus.enabled = a.bus.enabled

theorem Runs.refl (s : State) : Runs s s :=
  ⟨Keeps.refl s, id, id, id, ⟨[], by simp, Logged.refl s⟩, rfl, rfl⟩

theorem Runs.trans {a s t : State} (h : Runs a s) (k : Runs s t) : Runs a t := by
  refine ⟨h.keeps.trans k.keeps, k.idx ∘ h.idx, k.phase ∘ h.phase, k.buf ∘ h.buf, ?_, k.divider.trans h.divider,
    k.enabled.trans h.enabled⟩
  obtain ⟨x, hx, lx⟩ := h.log
  obtain ⟨y, hy, ly⟩ := k.log
  exact ⟨x ++ y, by rw [hy, hx, List.append_assoc], (lx.trans ly h.keeps.busy h.keeps.done).cast (by simp)⟩

theorem runs_setSeq (q : Seq) (s : State) : Runs s (setSeq q s) :=
  ⟨by constructor <;> rfl, id, id, id, ⟨[], by simp, Logged.of_eq rfl⟩, rfl, rfl⟩

theorem runs_memRead (i : Byte) (s : State) : Runs s (memRead i s).2 :=
  ⟨by constructor <;> rfl, id, id, id, ⟨_, rfl, logged_emit _ s⟩, rfl, rfl⟩

theorem runs_memWrite (i v : Byte) (s : State) : Runs s (memWrite i v s) :=
  ⟨by constructor <;> rfl, id, id, writeBuf_wf i v, ⟨[.bufWr i v], rfl, ⟨(logged_emit _ (writeBuf i v s)).log⟩⟩, rfl, rfl⟩

theorem runs_incIdx {s : State} (h : s.idx < s.len) : Runs s (incIdx s) := by
  refine ⟨by constructor <;> rfl, fun _ => ?_, id, id, ⟨[], by simp, Logged.of_eq rfl⟩, rfl, rfl⟩
  rw [BitVec.lt_def] at h
  have h1 := s.len.isLt
  have h2 : (1 : Byte).toNat = 1 := rfl
  rw [incIdx_idx, incIdx_len, BitVec.le_def, BitVec.toNat_add, h2]
  omega

theorem PrimResult.runs {p : Primitive} {s t : State} {c : Cause} (h : PrimResult p s t c) : Runs s t := by
  refine ⟨h.keeps, ?_, ?_, ?_, ⟨_, h.trace, h.log⟩, h.divider, h.enabled⟩
  · rw [h.idx, h.keeps.len]; exact id
  · rw [h.phase]
    intro hp
    split
    · cases p <;> simp [Primitive.phase]
    · exact hp
  · rw [h.buf]; exact id

theorem runs_primitive (p : Primitive) (s : State) : Runs s (runPrimitive p s).2 := (runPrimitive_result p s).runs

theorem runs_runStep {q : Seq} {one : Proc} {a : State} {r : Cause × State} (h : Runs a r.2)
    (hone : Runs a (setSeq q r.2) → Runs (setSeq q r.2) (one (setSeq q r.2)).2) : Runs a (runStep q one r).2 := by
  rcases r with ⟨c, s⟩
  by_cases hc : c = .none
  · subst hc
    obtain ⟨q', hq⟩ := runStep_state (q := q) (p := one) (s := s)
    rw [hq]
    have h1 := h.trans (runs_setSeq q s)
    exact (h1.trans (hone h1)).trans (runs_setSeq q' _)
  · rw [runStep_failed hc]
    exact h

theorem runs_sendOne {s : State} (h : s.idx < s.len) : Runs s (sendOne s).2 := by
  obtain ⟨t, R, hv⟩ := sendOne_result s
  have ht : Runs s t := (runs_memRead s.idx s).trans R.runs
  rw [hv]
  split
  · exact ht.trans (runs_incIdx (by rw [R.idx, R.keeps.len]; exact h))
  · exact ht

theorem runs_receiveOne {s : State} (h : s.idx < s.len) : Runs s (receiveOne s).2 := by
  obtain ⟨t, R, hv⟩ := receiveOne_result s
  have ht : Runs s t := R.runs
  rw [hv]
  split
  · exact ht.trans ((runs_memWrite s.idx t.rxdata t).trans (runs_incIdx (s := memWrite s.idx t.rxdata t)
      (show t.idx < t.len by rw [R.idx, R.keeps.len]; exact h)))
  · exact ht

theorem runs_sendAll {a : State} {r : Cause × State} (h : Runs a r.2) : Runs a (sendAll r).2 :=
  dataLoop_induct (P := fun r => Runs a r.2) (fun _ _ hlt hr => runs_runStep hr fun _ => runs_sendOne hlt) _ _ h

theorem runs_receiveAll {a : State} {r : Cause × State} (h : Runs a r.2) : Runs a (receiveAll r).2 :=
  dataLoop_induct (P := fun r => Runs a r.2) (fun _ _ hlt hr => runs_runStep hr fun _ => runs_receiveOne hlt) _ _ h

/-- Everything but INIT: acceptance, a run that keeps what `Runs` says, completion with some cause. -/
theorem exec_runs (i : Instr) (s : State) (hi : i ≠ .init) :
    ∃ c u, exec i s = .next (complete c u) ∧ Runs (accept i.fields s) u := by
  have start : ∀ a, Runs a (runStep .start pStart (.none, a)).2 := fun a =>
    runs_runStep (Runs.refl a) fun _ => runs_primitive .start _
  have addr : ∀ {q a r} (d : Dir), Runs a r.2 → Runs a (runStep q (fun s => pAddr s.addr7 d s) r).2 := fun d h =>
    runs_runStep h fun _ => runs_primitive (.addr _ d) _
  have reg : ∀ {a r}, Runs a r.2 → Runs a (runStep .reg (fun s => pTxdata s.byte s) r).2 := fun h =>
    runs_runStep h fun _ => runs_primitive (.txdata _) _
  have rstart : ∀ {a r}, Runs a r.2 → Runs a (runStep .rstart pRstart r).2 := fun h =>
    runs_runStep h fun _ => runs_primitive .rstart _
  have stop : ∀ {a} {r : Cause × State}, Runs a r.2 → Runs a (pStop (setSeq .stop r.2)).2 := fun {a r} h =>
    h.trans ((runs_setSeq .stop r.2).trans (runs_primitive .stop _))
  cases i
  case init => exact absurd rfl hi
  case start => exact ⟨_, _, rfl, runs_primitive .start _⟩
  case rstart => exact ⟨_, _, rfl, runs_primitive .rstart _⟩
  case addr d a => exact ⟨_, _, rfl, runs_primitive (.addr _ _) _⟩
  case txdata b => exact ⟨_, _, rfl, runs_primitive (.txdata _) _⟩
  case rxack => exact ⟨_, _, rfl, runs_primitive .rxack _⟩
  case rxnack => exact ⟨_, _, rfl, runs_primitive .rxnack _⟩
  case stop => exact ⟨_, _, rfl, runs_primitive .stop _⟩
  case bwrite a n => exact ⟨_, _, rfl, stop (runs_sendAll (addr .write (start _)))⟩
  case bread a n => exact ⟨_, _, rfl, stop (runs_receiveAll (addr .read (start _)))⟩
  case wreg a b n => exact ⟨_, _, rfl, stop (runs_sendAll (reg (addr .write (start _))))⟩
  case rreg a b n =>
    exact ⟨_, _, rfl, stop (runs_receiveAll (addr .read (rstart (reg (addr .write (start _))))))⟩

/-! ### A step -/

/-- Everything a step can be. -/
theorem step_cases {s t : State} (h : step s = .next t) :
    (s.busy = true ∧ t = busyStep s) ∨
    (s.busy = false ∧ s.cmdValid = true ∧ ∃ i, decode s.cmd = .command i ∧ exec i (takeCommand s) = .next t) ∨
    (s.busy = false ∧ s.cmdValid = true ∧ (∃ why, decode s.cmd = .illegal why) ∧
      t = runIllegal s.cmd (takeCommand s)) ∨
    (s.busy = false ∧ s.cmdValid = false ∧ t = idleStep s) := by
  simp only [step] at h
  cases hb : s.busy <;> cases hv : s.cmdValid <;> simp only [hb, hv, if_true, if_false, Bool.false_eq_true] at h
  · exact .inr (.inr (.inr ⟨rfl, rfl, (Host.Outcome.next.inj h).symm⟩))
  · rcases hd : decode s.cmd with i | why <;> rw [hd] at h
    · exact .inr (.inl ⟨rfl, rfl, i, rfl, h⟩)
    · exact .inr (.inr (.inl ⟨rfl, rfl, ⟨why, rfl⟩, (Host.Outcome.next.inj h).symm⟩))
  · exact .inl ⟨rfl, (Host.Outcome.next.inj h).symm⟩
  · exact .inl ⟨rfl, (Host.Outcome.next.inj h).symm⟩

end Sys2Proof.Machine
end

