-- ==== Sys2Proof/Tests/Slice0.lean ====
section
/-! SUPPORT. The model's own tests. Expected results are the spec's: the vectors of 95_test_vectors.md, named by
their ids, and the worked examples of the rules. -/

namespace Sys2Proof.Tests

open Sys2Proof.Machine

/-! ### Well-formedness smoke: an ill-formed term for each check -/

theorem test_cfg_vectors_wellFormed : Cfg.vectors.WellFormed := by decide

/-- 00_scope R7: two codes alike. -/
theorem test_cfg_codes_distinct :
    ¬ Cfg.WellFormed { Cfg.vectors with stRstart := 0x08#8 } := by decide

/-- 00_scope R7: a low bit set. -/
theorem test_cfg_low_bits : ¬ Cfg.WellFormed { Cfg.vectors with stStart := 0x09#8 } := by decide

/-- 00_scope R7: F_REF >= 1. -/
theorem test_cfg_fRef : ¬ Cfg.WellFormed { Cfg.vectors with fRef := 0 } := by decide

/-- 30_encoding R96: OP 0x0, 0xD, 0xE, 0xF. -/
theorem test_wf_opcode :
    (Cmd32.wellFormed ⟨0x0, 0, 0, 0, 0, 0, 0⟩ || Cmd32.wellFormed ⟨0xD, 0, 0, 0, 0, 0, 0⟩ ||
      Cmd32.wellFormed ⟨0xE, 0, 0, 0, 0, 0, 0⟩ || Cmd32.wellFormed ⟨0xF, 0, 0, 0, 0, 0, 0⟩) = false := by decide

/-- 30_encoding R95: Z1, Z2, and each unused field. -/
theorem test_wf_zeros :
    (Cmd32.wellFormed ⟨0x4, 1, 0, 0, 0x50, 0, 0⟩ || Cmd32.wellFormed ⟨0x4, 0, 0, 1, 0, 0, 0⟩ ||
      Cmd32.wellFormed ⟨0x2, 0, 1, 0, 0, 0, 0⟩ || Cmd32.wellFormed ⟨0x5, 0, 0, 0, 0x50, 0, 0⟩ ||
      Cmd32.wellFormed ⟨0x4, 0, 0, 0, 0x50, 1, 0⟩ || Cmd32.wellFormed ⟨0x2, 0, 0, 0, 0, 0, 1⟩) = false := by
  decide

/-! ### Decoding: one word for each constructor, written out from 30_encoding R91 and R93 (95 E1 to E9, E22) -/

theorem test_decode_init : decode 0b0001_000_0_0_0000000_00000000_00000000#32 = .command .init := by decide
theorem test_decode_start : decode 0b0010_000_0_0_0000000_00000000_00000000#32 = .command .start := by decide
theorem test_decode_rstart : decode 0b0011_000_0_0_0000000_00000000_00000000#32 = .command .rstart := by decide
theorem test_decode_addr_w :
    decode 0b0100_000_0_0_1010000_00000000_00000000#32 = .command (.addr .write 0x50) := by decide
theorem test_decode_addr_r :
    decode 0b0100_000_1_0_1111111_00000000_00000000#32 = .command (.addr .read 0x7F) := by decide
theorem test_decode_txdata :
    decode 0b0101_000_0_0_0000000_10101011_00000000#32 = .command (.txdata 0xAB) := by decide
theorem test_decode_rxack : decode 0b0110_000_0_0_0000000_00000000_00000000#32 = .command .rxack := by decide
theorem test_decode_rxnack : decode 0b0111_000_0_0_0000000_00000000_00000000#32 = .command .rxnack := by decide
theorem test_decode_stop : decode 0b1000_000_0_0_0000000_00000000_00000000#32 = .command .stop := by decide
theorem test_decode_bwrite :
    decode 0b1001_000_0_0_1010000_00000000_00000010#32 = .command (.bwrite 0x50 2) := by decide
theorem test_decode_bread :
    decode 0b1010_000_0_0_1111111_00000000_11111111#32 = .command (.bread 0x7F 255) := by decide
theorem test_decode_wreg :
    decode 0b1011_000_0_0_1010000_00000000_00000001#32 = .command (.wreg 0x50 0x00 1) := by decide
theorem test_decode_rreg :
    decode 0b1100_000_0_0_1010000_00010000_00000011#32 = .command (.rreg 0x50 0x10 3) := by decide

/-- 95 E10 to E15: the decoder names the rule a word breaks. -/
theorem test_decode_illegal :
    decode 0x00000000#32 = .illegal .opcode ∧ decode 0xD0000000#32 = .illegal .opcode ∧
      decode 0xE0000000#32 = .illegal .opcode ∧ decode 0xF0000000#32 = .illegal .opcode ∧
      decode 0x20000001#32 = .illegal .len ∧ decode 0x21000000#32 = .illegal .dir ∧
      decode 0x40800000#32 = .illegal .z2 ∧ decode 0x42500000#32 = .illegal .z1 := by decide

/-- 95 E16 to E21, E23. -/
theorem test_decode_illegal_fields :
    decode 0x40500100#32 = .illegal .byte ∧ decode 0x50500000#32 = .illegal .addr7 ∧
      decode 0x91500002#32 = .illegal .dir ∧ decode 0x90500102#32 = .illegal .byte ∧
      decode 0xB1500001#32 = .illegal .dir ∧ decode 0xC8501003#32 = .illegal .z1 ∧
      decode 0x80008000#32 = .illegal .byte := by decide

/-- 42 R155, 43 R185: encodings worked out in the rules. -/
theorem test_encode :
    encode (.addr .read 0x50) = 0x41500000#32 ∧ encode (.wreg 0x50 0x00 1) = 0xB0500001#32 := by decide

/-! ### One command from a small state -/

/-- A state with the vectors' configuration, budget `b`, the responses `sc` and BUF holding `m`. -/
def small (b : BitVec 16) (sc : List Response) (m : Memory) : State :=
  { State.reset with
    cfg := { Cfg.vectors with timeoutBudget := b }
    script := sc
    buf := m
    bus := default }

/-- A response `(k, s, d)`. -/
def resp (k : Nat) (s : Byte) (d : Byte := 0) : Response := ⟨some k, s, d⟩

/-- The response `(never, -, -)`. -/
def never : Response := ⟨none, 0, 0⟩

/-- Present a word and step. -/
def after (w : Word) (s : State) : Option State :=
  match step (s.withFetchWord 32 w.toNat) with
  | .next t => some t
  | .fault _ => none
  | .refused _ => none

/-- STAT and trace after a word. -/
def seen (w : Word) (s : State) : Option (Word × List Event) :=
  (after w s).map fun t => (stat t, t.trace)

/-- STAT and bus sequence after a word. -/
def onBus (w : Word) (s : State) : Option (Word × List BusStep) :=
  (after w s).map fun t => (stat t, busSequence t.trace)

/-- 95 I1: INIT. -/
theorem test_init : seen 0x10000000#32 (small 1000 [] []) = some (0x00000002#32, [.wrDiv 72, .setEn]) := by decide

/-- 95 T1. -/
theorem test_start :
    seen 0x20000000#32 (small 1000 [resp 2 0x08] []) =
      some (0x08000202#32,
        [.trig .start, .pollDone false, .pollDone false, .pollDone true, .rdStatus 0x08]) := by decide

/-- 95 T9: the ready answer one poll too late. -/
theorem test_start_timeout :
    seen 0x20000000#32 (small 3 [resp 3 0x08] []) =
      some (0x0000005E#32, [.trig .start, .pollDone false, .pollDone false, .pollDone false]) := by decide

/-- 95 T3. -/
theorem test_rstart :
    seen 0x30000000#32 (small 1000 [resp 0 0x10] []) =
      some (0x10000202#32, [.trig .start, .pollDone true, .rdStatus 0x10]) := by decide

/-- 95 T2: START rejects what RSTART accepts. -/
theorem test_start_rejects_rstart :
    seen 0x20000000#32 (small 1000 [resp 0 0x10] []) =
      some (0x1000004A#32, [.trig .start, .pollDone true, .rdStatus 0x10]) := by decide

/-- 95 A1: low status bits are latched and ignored. -/
theorem test_addr_write :
    seen 0x40500000#32 (small 1000 [resp 1 0x1B] []) =
      some (0x1B000402#32,
        [.wrData 0xA0, .trig .transmit, .pollDone false, .pollDone true, .rdStatus 0x1B]) := by decide

/-- 95 A5. -/
theorem test_addr_read_nack :
    seen 0x41500000#32 (small 1000 [resp 0 0x48] []) =
      some (0x48000016#32, [.wrData 0xA1, .trig .transmit, .pollDone true, .rdStatus 0x48]) := by decide

/-- 95 X1. -/
theorem test_txdata :
    seen 0x5000AB00#32 (small 1000 [resp 0 0x28] []) =
      some (0x28000602#32, [.wrData 0xAB, .trig .transmit, .pollDone true, .rdStatus 0x28]) := by decide

/-- 95 X3: the address nack code is no data nack. -/
theorem test_txdata_wrong_nack :
    seen 0x5000AB00#32 (small 1000 [resp 0 0x20] []) =
      some (0x2000004A#32, [.wrData 0xAB, .trig .transmit, .pollDone true, .rdStatus 0x20]) := by decide

/-- 95 G1, with RXDATA. -/
theorem test_rxack :
    seen 0x60000000#32 (small 1000 [resp 3 0x50 0x11] []) =
        some (0x50000602#32,
          [.trig .rxAck, .pollDone false, .pollDone false, .pollDone false, .pollDone true, .rdStatus 0x50,
            .rdData 0x11]) ∧
      ((after 0x60000000#32 (small 1000 [resp 3 0x50 0x11] [])).map (·.rxdata)) = some 0x11#8 := by decide

/-- 95 G2: no data read after a failed receive. -/
theorem test_rxack_wrong_code :
    seen 0x60000000#32 (small 1000 [resp 0 0x58 0x11] []) =
      some (0x5800004A#32, [.trig .rxAck, .pollDone true, .rdStatus 0x58]) := by decide

/-- 95 G5. -/
theorem test_rxnack :
    seen 0x70000000#32 (small 1000 [resp 0 0x58 0x33] []) =
      some (0x58000602#32, [.trig .rxNack, .pollDone true, .rdStatus 0x58, .rdData 0x33]) := by decide

/-- 95 P1. -/
theorem test_stop :
    seen 0x80000000#32 (small 1000 [resp 1 0] []) =
      some (0x00000002#32, [.trig .stop, .pollStop true, .pollStop false]) := by decide

/-- 95 P3: an exhausted stop wait. -/
theorem test_stop_unconfirmed :
    seen 0x80000000#32 (small 3 [never] []) =
      some (0x00000082#32, [.trig .stop, .pollStop true, .pollStop true, .pollStop true]) := by decide

/-- 60 R221: a host polling STAT during STOP sees BUSY and PHASE = StopIssued at the poll. -/
theorem test_stop_window :
    ((after 0x80000000#32 (small 1000 [resp 0 0] [])).map (·.statLog)) = some [0x00000001#32, 0x00000801#32] := by
  decide

/-- 95 BW2. -/
theorem test_bwrite :
    onBus 0x90500002#32
        (small 9 [resp 0 0x08, resp 0 0x18, resp 0 0x28, resp 0 0x28, resp 0 0] [(0, 0x01), (1, 0x02)]) =
      some (0x28020002#32, [.start, .address 0xA0, .byte 0x01, .byte 0x02, .stop]) := by decide

/-- 95 P6, last paragraph: the three steps inside an operation. -/
theorem test_bwrite_arbitration :
    onBus 0x90500000#32 (small 4 [resp 0 0x08, resp 0 0x38, never] []) =
      some (0x380000AA#32, [.start, .address 0xA0, .stop]) := by decide

/-- 95 BR2, with BUF. -/
theorem test_bread :
    onBus 0xA0500002#32
          (small 9 [resp 0 0x08, resp 0 0x40, resp 0 0x50 0x11, resp 0 0x58 0x22, resp 0 0] []) =
        some (0x58020002#32, [.start, .address 0xA1, .ackReceive, .nackReceive, .stop]) ∧
      ((after 0xA0500002#32
          (small 9 [resp 0 0x08, resp 0 0x40, resp 0 0x50 0x11, resp 0 0x58 0x22, resp 0 0] [])).map (·.buf)) =
        some [(0, 0x11#8), (1, 0x22#8)] := by decide

/-- 95, the mid-burst timeout with slow answers. -/
theorem test_bread_midburst_timeout :
    seen 0xA0500003#32
        (small 3 [resp 0 0x08, resp 0 0x40, resp 1 0x50 0x11, never, resp 2 0] [(0, 0xEE), (1, 0xEE), (2, 0xEE)]) =
      some (0x5001005E#32,
        [.trig .start, .pollDone true, .rdStatus 0x08,
          .wrData 0xA1, .trig .transmit, .pollDone true, .rdStatus 0x40,
          .trig .rxAck, .pollDone false, .pollDone true, .rdStatus 0x50, .rdData 0x11, .bufWr 0 0x11,
          .trig .rxAck, .pollDone false, .pollDone false, .pollDone false,
          .trig .stop, .pollStop true, .pollStop true, .pollStop false]) := by decide

/-- 95 S7 in full. -/
theorem test_wreg :
    seen 0xB0500001#32
        (small 1000 [resp 0 0x08, resp 0 0x18, resp 0 0x28, resp 0 0x28, resp 0 0] [(0, 0xAB)]) =
      some (0x28010002#32,
        [.trig .start, .pollDone true, .rdStatus 0x08,
          .wrData 0xA0, .trig .transmit, .pollDone true, .rdStatus 0x18,
          .wrData 0x00, .trig .transmit, .pollDone true, .rdStatus 0x28,
          .bufRd 0 0xAB, .wrData 0xAB, .trig .transmit, .pollDone true, .rdStatus 0x28,
          .trig .stop, .pollStop false]) := by decide

/-- 95 S8 in full. -/
theorem test_wreg_absent :
    seen 0xB0500001#32 (small 1000 [resp 0 0x08, resp 0 0x20, resp 0 0] [(0, 0xAB)]) =
      some (0x20000016#32,
        [.trig .start, .pollDone true, .rdStatus 0x08,
          .wrData 0xA0, .trig .transmit, .pollDone true, .rdStatus 0x20,
          .trig .stop, .pollStop false]) := by decide

/-- 95 S9. -/
theorem test_rreg :
    onBus 0xC0501003#32
        (small 9
          [resp 0 0x08, resp 0 0x18, resp 0 0x28, resp 0 0x10, resp 0 0x40, resp 0 0x50 0x11, resp 0 0x50 0x22,
            resp 0 0x58 0x33, resp 0 0] []) =
      some (0x58030002#32,
        [.start, .address 0xA0, .byte 0x10, .repeatedStart, .address 0xA1, .ackReceive, .ackReceive, .nackReceive,
          .stop]) := by decide

/-- 95 FR6: the failing byte 0x99 appears nowhere. -/
theorem test_rreg_failed_receive :
    ((after 0xC0501002#32
        (small 9
          [resp 0 0x08, resp 0 0x18, resp 0 0x28, resp 0 0x10, resp 0 0x40, resp 0 0x50 0x11, resp 0 0x50 0x99,
            resp 0 0] [(0, 0xEE), (1, 0xEE)])).map fun t => (stat t, t.buf, t.rxdata)) =
      some (0x5001004A#32, [(0, 0x11#8), (1, 0xEE#8)], 0x11#8) := by decide

/-- 95 P5: an illegal word after BR1. -/
theorem test_illegal_word :
    seen 0x00000000#32 { small 9 [] [] with lastStatus := 0x58, idx := 1, len := 1, done := true } =
      some (0x58000102#32, []) := by decide

/-- 30_encoding R92: a word presented while BUSY = 1 waits. -/
theorem test_busy_waits :
    (match step { small 9 [] [] with busy := true, cmd := 0x20000000#32, cmdValid := true } with
      | .next t => t.cmdValid && t.busy && t.trace.isEmpty
      | _ => false) = true := by decide

/-- 70_reset R241, R242: the reset input abandons a command and leaves the bus controller alone. -/
theorem test_reset_busy :
    (match step { small 9 [] [(3, 7)] with busy := true, phase := .startIssued, host := [.reset] } with
      | .next t => !t.busy && !t.done && decide (t.phase = .idle ∧ t.buf = [] ∧ t.bus = default ∧ t.host = [])
      | _ => false) = true := by decide

/-! ### The projection to bus steps (00_scope R12) -/

/-- R12: a stop does not end "the first byte after a start"; a byte does, and a start after a stop is no repeated
start. -/
theorem test_busSequence_after_stop :
    busSequence [.trig .start, .trig .stop, .wrData 0xA0, .trig .transmit, .wrData 0x01, .trig .transmit] =
        [.start, .stop, .address 0xA0, .byte 0x01] ∧
      busSequence [.trig .start, .trig .start, .trig .stop, .trig .start] =
        [.start, .repeatedStart, .stop, .start] := by decide

/-! ### Internal functions -/

/-- 95 D2, D4, D6, D8, D10, D14, D15. -/
theorem test_classify :
    classify Cfg.vectors 0x1F [0x18] (some 0x20) = .none ∧ classify Cfg.vectors 0x27 [0x18] (some 0x20) = .nack ∧
      classify Cfg.vectors 0x3B [0x18] (some 0x20) = .arbLost ∧
      classify Cfg.vectors 0x07 [0x18] (some 0x20) = .busFault ∧
      classify Cfg.vectors 0xFF [0x18] (some 0x20) = .unrecognized ∧
      classify Cfg.vectors 0x10 [0x08] none = .unrecognized ∧ classify Cfg.vectors 0x10 [0x08, 0x10] none = .none := by
  decide

/-- 95 V1 to V7. -/
theorem test_divider :
    divider 16000000 100000 255 = 72 ∧ divider 16000000 400000 255 = 12 ∧ divider 16000000 300000 255 = 18 ∧
      divider 16000000 1000 255 = 255 ∧ divider 16000000 2000000 255 = 0 ∧ divider 16000000 0 255 = 255 ∧
      divider 16000000 1000000 255 = 0 := by decide

/-- 95 V10 to V13: the edges of the clamp. -/
theorem test_divider_clamp :
    divider 16000000 30418 255 = 255 ∧ divider 16000000 30303 255 = 255 ∧ divider 1 100000 255 = 0 ∧
      divider 16000000 100000 63 = 63 := by decide

/-- 30_encoding R98, 95 A8, A9. -/
theorem test_addrByte :
    addrByte 0x50 .write = 0xA0 ∧ addrByte 0x50 .read = 0xA1 ∧ addrByte 0x7F .read = 0xFF ∧
      addrByte 0x7F .write = 0xFE := by decide

/-- 95 W6, W7: TMO afterwards. -/
theorem test_tmo :
    ((after 0x20000000#32 (small 4 [resp 3 0x08] [])).map (·.tmo)) = some 1#16 ∧
      ((after 0x20000000#32 (small 4 [resp 4 0x08] [])).map (·.tmo)) = some 0#16 := by decide

/-- 30_encoding R107: the alias. -/
theorem test_alias : startAllow false = .start ∧ startAllow true = .rstart := by decide

/-! ### Witnesses: for every statement with hypotheses, operands and a state that meet them all -/

/-- DecodeOfEncode, EncodeOfDecode, MatchAndMask (both ways), MustBeZeroFields (first clause). -/
theorem test_meets_encoding :
    (Instr.rreg 0x7F 0xFF 0xFF).WellFormed ∧ decode 0xC07FFFFF#32 = .command (.rreg 0x7F 0xFF 0xFF) ∧
      (⟨"RREG", 0xC0000000#32, 0xFF800000#32⟩ : Row) ∈ opcodeTable ∧ 0xC07FFFFF#32 &&& 0xFF800000#32 = 0xC0000000#32 ∧
      0xC0800000#32 &&& 0xFF800000#32 ≠ 0xC0000000#32 := by decide

/-- MustBeZeroFields (second clause): each kind of word that is no command. -/
theorem test_meets_illFormed :
    (Cmd32.ofWord 0x00000000#32).wellFormed = false ∧ (Cmd32.ofWord 0xD0000000#32).wellFormed = false ∧
      (Cmd32.ofWord 0x40800000#32).wellFormed = false ∧ (Cmd32.ofWord 0x20000001#32).wellFormed = false := by decide

/-- A waiting word, before its step. -/
def waiting (w : Word) (s : State) : State := { s with cmd := w, cmdValid := true }

/-- StepRunsDecodedCommand (both clauses), AcceptedCommandRunsBusy. -/
theorem test_meets_accept :
    let s := waiting 0x41500000#32 (small 1 [] [])
    s.busy = false ∧ s.cmdValid = true ∧ decode s.cmd = .command (.addr .read 0x50) ∧
      (Instr.addr .read 0x50).WellFormed ∧ decodeTableWord 32 0x41500000 = some (.addr .read 0x50) := by decide

/-- IllegalWordCompletesAtOnce: the illegal opcodes at both ends, and a must-be-zero bit. -/
theorem test_meets_illegal :
    (waiting 0 (small 1 [] [])).busy = false ∧ (waiting 0 (small 1 [] [])).cmdValid = true ∧
      (∀ r ∈ opcodeTable, ¬ (0x0FFFFFFF#32 &&& r.mask = r.pattern)) ∧
      (∀ r ∈ opcodeTable, ¬ (0xD0000000#32 &&& r.mask = r.pattern)) ∧
      ∀ r ∈ opcodeTable, ¬ (0x30000001#32 &&& r.mask = r.pattern) :=
  ⟨rfl, rfl, by decide, by decide, by decide⟩

/-- WordWaitsWhileBusy: with no move, and with a move that is not the reset input. -/
theorem test_meets_wordWaits :
    let s := { small 1 [] [] with busy := true }
    s.busy = true ∧ (∀ rest, s.host ≠ .reset :: rest) ∧
      ∀ rest, ({ s with host := [.present 0] } : State).host ≠ .reset :: rest := by
  simp [small, State.reset]

/-- HostMovesWhileIdle, its three clauses, the last at the last byte of BUF. -/
theorem test_meets_hostMoves :
    (small 1 [] []).busy = false ∧ (small 1 [] []).cmdValid = false ∧ (small 1 [] []).host = [] ∧
      ({ small 1 [] [] with host := [.present 0x10000000#32] } : State).host = .present 0x10000000#32 :: [] ∧
      ({ small 1 [] [] with host := [.writeBuf 0xFF 1] } : State).host = .writeBuf 0xFF 1 :: [] := by decide

/-- ResetInput: idle with no word waiting, and busy with one. -/
theorem test_meets_reset :
    let s := { small 1 [] [] with host := [.reset] }
    let t := { s with busy := true, cmdValid := true }
    (s.host = .reset :: [] ∧ s.cmdValid = false) ∧ t.host = .reset :: [] ∧ t.busy = true := by decide

theorem test_meets_inv_small : (small 3 [resp 0 0x08] [(0, 1), (255, 2)]).Inv := by
  refine ⟨?_, ?_, rfl, rfl, ?_, rfl, ?_, rfl, ?_⟩
  · show Cfg.WellFormed { Cfg.vectors with timeoutBudget := 3 }
    decide
  · show Memory.wf [(0, 1), (255, 2)]
    decide
  · show (0#8) ≤ 0#8
    decide
  · simp [small, State.reset]
  · simp [small, State.reset]

/-- StepKeepsInv, StepKeepsConfiguration, EnableAndDivider: a state with the invariant that takes a step, and one
whose step (INIT) changes the divider and keeps the enable flag set. -/
theorem test_meets_step :
    (∃ t, (waiting 0x20000000#32 (small 3 [resp 0 0x08] [(0, 1), (255, 2)])).Inv ∧
      step (waiting 0x20000000#32 (small 3 [resp 0 0x08] [(0, 1), (255, 2)])) = .next t) ∧
    (∃ s t, s.bus.enabled = true ∧ step s = .next t ∧ t.bus.divider ≠ s.bus.divider) := by
  refine ⟨⟨_, ?_, rfl⟩, waiting 0x10000000#32 { small 3 [] [] with bus := { (default : BusController) with enabled := true } },
    _, rfl, rfl, by decide⟩
  have h := test_meets_inv_small
  exact ⟨h.cfg, h.buf, h.busy, h.seq, h.idx, h.outcome, h.phase, h.log, h.window⟩

/-- ClassifyComparesTopFiveBits. -/
theorem test_meets_topBits : 0x18#8 &&& 0xF8#8 = 0x1F#8 &&& 0xF8#8 := by decide

/-- NeverSucceedOnUnmappedStatus, each clause; ClassifyEachCauseHasItsCode. -/
theorem test_meets_classify :
    let c := Cfg.vectors
    c.WellFormed ∧ c.stRstart ∈ Primitive.rstart.success c ∧ c.stRstart ∉ Primitive.start.success c ∧
      (Primitive.addr 0 .write).failure c = some c.stTxAddrNack ∧
      (Primitive.txdata 0).failure c ≠ some c.stTxAddrNack ∧ statusCode 0xF8 ∉ c.codes := by decide

/-- WaitResult, GuardBoundaries, AccessSideEffects: each case of the wait, at its boundaries. -/
theorem test_meets_wait :
    let s (b : BitVec 16) (k : Option Nat) : State :=
      { small b [] [] with bus := { (default : BusController) with pending := ⟨k, 0, 0⟩ } }
    ((s 4 (some 3)).bus.pending.notReady = some 3 ∧ 3 < (s 4 (some 3)).cfg.timeoutBudget.toNat) ∧
      ((s 4 (some 4)).bus.pending.notReady = some 4 ∧ ¬ 4 < (s 4 (some 4)).cfg.timeoutBudget.toNat) ∧
      (s 4 none).bus.pending.notReady = none ∧ (s 0 (some 0)).cfg.timeoutBudget = 0 ∧
      ((s 1 (some 0)).cfg.timeoutBudget = 1 ∧ (s 1 (some 0)).bus.pending.notReady = some 0) ∧
      ((s 1 (some 1)).cfg.timeoutBudget = 1 ∧ (s 1 (some 1)).bus.pending.notReady ≠ some 0) ∧
      Primitive.start ≠ .stop ∧ (bcDone (s 1 (some 0))).1 = true := by decide

/-- PollsAreBounded, OperationPlaysItsSteps, and the frames of the operations. -/
theorem test_meets_operation :
    (∀ i ∈ [Instr.bwrite 0 0, .bread 0 0xFF, .wreg 0 0 1, .rreg 0x7F 0 1], isOperation i = true) ∧
      (∃ a n, Instr.bread 0 0xFF = .bread a n) ∧ (∃ a b n, Instr.rreg 0x7F 0 1 = .rreg a b n) ∧
      (∃ a n, Instr.bwrite 0 0 = .bwrite a n) ∧ ∃ a b n, Instr.wreg 0 0 1 = .wreg a b n :=
  ⟨by decide, ⟨_, _, rfl⟩, ⟨_, _, _, rfl⟩, ⟨_, _, rfl⟩, _, _, _, rfl⟩

/-- StartResult and RxnackResult, their last clauses. -/
theorem test_meets_wrongCode :
    let s := small 1 [resp 0 0x10] []
    let t := small 1 [resp 0 0x50] []
    (s.cfg.WellFormed ∧ inTime s .start = true ∧ statusCode (answer s .start).status = s.cfg.stRstart) ∧
      t.cfg.WellFormed ∧ inTime t .rxnack = true ∧ statusCode (answer t .rxnack).status = t.cfg.stRxDataAck := by
  decide

/-- AddressDoesNotChangeClassification. -/
theorem test_meets_script : (small 1 [resp 0 0x18] []).script ≠ [] := by decide

/-- The frames of the primitives, on success, on another cause and on a timeout. -/
theorem test_meets_primitiveFrame :
    (∃ d a, Instr.addr .read 0 = .addr d a) ∧ (∃ b, Instr.txdata 0 = .txdata b) ∧
      ((after 0x60000000#32 (small 1 [resp 0 0x58] [])).map (·.cause)) = some .unrecognized ∧
      ((after 0x60000000#32 (small 1 [never] [])).map (·.cause)) = some .timeout :=
  ⟨⟨_, _, rfl⟩, ⟨_, rfl⟩, by decide⟩

/-- DividerFormula: where its clauses meet. -/
theorem test_meets_divider : 15 / 1 < 16 ∧ 16 ≤ 16 / 1 ∧ (1 : Nat) ≠ 0 := by decide

/-- TriggerCounts: a full read, and a read that fails at its step 3. -/
theorem test_meets_counts :
    let s := small 1 [resp 0 0x08, resp 0 0x40, resp 0 0x50, resp 0 0x58, resp 0 0] []
    let t := small 1 [resp 0 0x08, resp 0 0x40, resp 0 0x50, resp 0 0x50, resp 0 0] []
    let i : Instr := .bread 0x50 2
    isOperation i = true ∧ (play s (bodyMoves s i)).cause = .none ∧ 1 ≤ i.fields.len.toNat ∧
      3 < (bodyMoves t i).length ∧ (play t ((bodyMoves t i).take 3)).cause = .none ∧
      (play t ((bodyMoves t i).take 4)).cause = .unrecognized := by decide

/-- OperationEqualsItsPrimitiveCommands: a script that just suffices. -/
theorem test_meets_longScript :
    let s := small 1 [resp 0 0x08, resp 0 0x40, resp 0 0x50, resp 0 0x58, resp 0 0] []
    (bodyMoves s (.bread 0x50 2)).length + 1 ≤ s.script.length := by decide

/-- RestAfterCommand, StopUnconfIsTheStopsVerdict, RxdataIsTheLastRead: a command on each side of each condition. -/
theorem test_meets_kind :
    isOperation (.bwrite 0 0) = true ∧ isOperation .stop = false ∧ isOperation .rxack = false ∧ Instr.rxack ≠ .stop ∧
      Instr.rxnack = .rxnack := by decide

/-- BufferCanonical and BufferPrimitives. -/
theorem test_meets_buffer :
    let m : Memory := [(0, 1), (255, 2)]
    Memory.wf m ∧ Memory.write (Memory.write [] 255 2) 0 1 = m ∧ (∀ a, Memory.lookup m a = Memory.lookup m a) ∧
      (0 : Byte) ≠ 255 := by
  refine ⟨by decide, by decide, fun _ => rfl, by decide⟩

end Sys2Proof.Tests
end

section
/-! PROOFS. The eight bus-controller accesses (00_scope R10): for each, the event it records, the value it returns and
what it does to the bus controller; for a trigger this is `bcTrigger_result`. -/

namespace Sys2Proof.Machine

/-! ### The three writes -/

@[simp] theorem bcWriteDivider_trace (v : Nat) (s : State) :
    (bcWriteDivider v s).trace = s.trace ++ [.wrDiv v] := rfl
@[simp] theorem bcWriteDivider_bus (v : Nat) (s : State) :
    (bcWriteDivider v s).bus = { s.bus with divider := v } := rfl

@[simp] theorem bcSetEnable_trace (s : State) : (bcSetEnable s).trace = s.trace ++ [.setEn] := rfl
@[simp] theorem bcSetEnable_bus (s : State) : (bcSetEnable s).bus = { s.bus with enabled := true } := rfl

@[simp] theorem bcWriteData_trace (b : Byte) (s : State) :
    (bcWriteData b s).trace = s.trace ++ [.wrData b] := rfl
@[simp] theorem bcWriteData_bus (b : Byte) (s : State) :
    (bcWriteData b s).bus = { s.bus with data := b } := rfl

/-! ### The two reads -/

@[simp] theorem bcStatus_value (s : State) : (bcStatus s).1 = s.bus.status := rfl
@[simp] theorem bcStatus_trace (s : State) :
    (bcStatus s).2.trace = s.trace ++ [.rdStatus s.bus.status] := rfl
@[simp] theorem bcStatus_bus (s : State) : (bcStatus s).2.bus = s.bus := rfl

@[simp] theorem bcReadData_value (s : State) : (bcReadData s).1 = s.bus.data := rfl
@[simp] theorem bcReadData_trace (s : State) :
    (bcReadData s).2.trace = s.trace ++ [.rdData s.bus.data] := rfl
@[simp] theorem bcReadData_bus (s : State) :
    (bcReadData s).2.bus = { s.bus with completion := false } := rfl

/-! ### The two polls (20_memory R72) -/

theorem bcDone_trace (s : State) : (bcDone s).2.trace = s.trace ++ [.pollDone (bcDone s).1] := rfl

/-- A ready poll finishes the action; another one only uses up an answer of the responder. -/
theorem bcDone_bus (s : State) :
    (bcDone s).2.bus =
      if (bcDone s).1 then finishAction { s.bus with pending := (pollPending s.bus.pending).2 }
      else { s.bus with pending := (pollPending s.bus.pending).2 } := rfl

@[simp] theorem finishAction_completion (b : BusController) : (finishAction b).completion = true := rfl

/-- 10_state R40: a poll that answers ready has seen the completion flag set. -/
theorem bcDone_completion_of_ready {s : State} (h : (bcDone s).1 = true) :
    (bcDone s).2.bus.completion = true := by
  rw [bcDone_bus, if_pos h, finishAction_completion]

theorem bcStopReleased_trace (s : State) :
    (bcStopReleased s).2.trace = s.trace ++ [.pollStop (!(bcStopReleased s).1)] := rfl

/-- 10_state R41, 41_timeout_guard R142: the poll answers the complement of the stop-in-progress flag. -/
theorem bcStopReleased_bus (s : State) :
    (bcStopReleased s).2.bus =
      { s.bus with pending := (pollPending s.bus.pending).2, stopBusy := !(bcStopReleased s).1 } := rfl

theorem bcStopReleased_stopBusy (s : State) :
    (bcStopReleased s).2.bus.stopBusy = !(bcStopReleased s).1 := by
  rw [bcStopReleased_bus]

/-! ### The obligation -/

/-- Settles O19: the eight accesses, each by its own lemmas; the trigger by `bcTrigger_result`. -/
theorem accessSideEffects : Obligations.AccessSideEffects := by
  intro s a v b
  have ht := bcTrigger_result a s
  exact ⟨⟨ht.trace, ht.action, ht.control, ht.completion, ht.data⟩,
    ⟨bcReadData_value s, bcReadData_trace s, bcReadData_bus s⟩,
    ⟨bcWriteData_trace b s, bcWriteData_bus b s⟩,
    ⟨bcSetEnable_trace s, bcSetEnable_bus s⟩,
    ⟨bcWriteDivider_trace v s, bcWriteDivider_bus v s⟩,
    ⟨bcStatus_value s, bcStatus_trace s, bcStatus_bus s⟩,
    ⟨bcDone_trace s, bcDone_completion_of_ready⟩,
    ⟨bcStopReleased_trace s, bcStopReleased_stopBusy s⟩⟩

end Sys2Proof.Machine
end

section
/-! PROOFS. The invariant of the machine (10_state R46): it holds after reset, and every step keeps it. -/

namespace Sys2Proof.Machine

/-! ### INIT's two writes -/

theorem bcWriteDivider_keeps (v : Nat) (s : State) : Keeps s (bcWriteDivider v s) := by constructor <;> rfl

theorem bcSetEnable_keeps (s : State) : Keeps s (bcSetEnable s) := by constructor <;> rfl

theorem bodyInit_keeps (s : State) : Keeps s (bodyInit s).2 :=
  (bcWriteDivider_keeps _ s).trans (bcSetEnable_keeps _)

@[simp] theorem bodyInit_trace (s : State) :
    (bodyInit s).2.trace = s.trace ++ [.wrDiv (dividerOf s.cfg), .setEn] := by
  simp [bodyInit]

@[simp] theorem bodyInit_bus (s : State) :
    (bodyInit s).2.bus = { s.bus with divider := dividerOf s.cfg, enabled := true } := rfl

@[simp] theorem bodyInit_lastStatus (s : State) : (bodyInit s).2.lastStatus = s.lastStatus := by
  simp [bodyInit, bcSetEnable, bcWriteDivider]

@[simp] theorem bodyInit_rxdata (s : State) : (bodyInit s).2.rxdata = s.rxdata := by
  simp [bodyInit, bcSetEnable, bcWriteDivider]

@[simp] theorem bodyInit_idx (s : State) : (bodyInit s).2.idx = s.idx := by
  simp [bodyInit, bcSetEnable, bcWriteDivider]

@[simp] theorem bodyInit_buf (s : State) : (bodyInit s).2.buf = s.buf := by
  simp [bodyInit, bcSetEnable, bcWriteDivider]

theorem bodyInit_logged (s : State) : Logged 2 s (bodyInit s).2 :=
  have h₁ : Logged 1 s (bcWriteDivider (dividerOf s.cfg) s) := ⟨(logged_emit _ (setBus _ s)).log⟩
  have h₂ : Logged 1 (bcWriteDivider (dividerOf s.cfg) s) (bodyInit s).2 := ⟨(logged_emit _ (setBus _ _)).log⟩
  h₁.trans h₂ rfl rfl

/-! ### A command -/

/-- A command that starts where the invariant holds and leaves a good IDX, PHASE, BUF and record completes where it
holds: completion gives the other clauses. -/
theorem complete_inv {f : Cmd32} {s u : State} (hs : s.Inv) (c : Cause) (hk : Keeps (accept f s) u)
    (hidx : u.idx ≤ u.len) (hphase : u.phase ≠ .stopIssued) (hbuf : Memory.wf u.buf)
    (hlog : ∃ new, u.trace = (accept f s).trace ++ new ∧ Logged new.length (accept f s) u) :
    (complete c u).Inv := by
  obtain ⟨new, htrace, ⟨words, hwords, hlen, hshow⟩⟩ := hlog
  rw [accept_trace] at htrace
  rw [accept_statLog] at hwords
  have hcfg : u.cfg.WellFormed := by rw [hk.cfg]; exact hs.cfg
  refine ⟨hcfg, hbuf, rfl, rfl, hidx, rfl, hphase, ?_, fun w hw => ?_⟩
  · simp [htrace, hwords, hlen, hs.log]
  · rw [complete_statLog, hwords] at hw
    exact (List.mem_append.1 hw).elim (hs.window w) (hshow w)

theorem exec_inv {i : Instr} {s t : State} (hs : s.Inv) (h : exec i s = .next t) : t.Inv := by
  have hidx : (accept i.fields s).idx ≤ (accept i.fields s).len := Nat.zero_le _
  by_cases hi : i = .init
  · subst hi
    cases h
    exact complete_inv hs .none (bodyInit_keeps _) hidx hs.phase hs.buf ⟨_, bodyInit_trace _, bodyInit_logged _⟩
  · obtain ⟨c, u, e, hu⟩ := exec_runs i s hi
    cases h.symm.trans e
    exact complete_inv hs c hu.keeps (hu.idx hidx) (hu.phase hs.phase) (hu.buf hs.buf) hu.log

/-! ### The other steps -/

/-- The invariant does not look at the command input or at the host's moves. -/
theorem State.Inv.setPorts {s : State} (hs : s.Inv) (w : Word) (v : Bool) (moves : List HostMove) :
    ({ s with cmd := w, cmdValid := v, host := moves } : State).Inv :=
  ⟨hs.cfg, hs.buf, hs.busy, hs.seq, hs.idx, hs.outcome, hs.phase, hs.log, hs.window⟩

theorem takeCommand_inv {s : State} (hs : s.Inv) : (takeCommand s).Inv := hs.setPorts s.cmd false s.host

/-- 30_encoding R96: IDX is 0 after an illegal word, and CAUSE, OUTCOME, PHASE and BUF are as they were. -/
theorem runIllegal_inv (w : Word) {s : State} (hs : s.Inv) : (runIllegal w s).Inv :=
  ⟨hs.cfg, hs.buf, rfl, rfl, (Nat.zero_le _), hs.outcome, hs.phase, hs.log, hs.window⟩

/-- A state with a well-formed configuration and a good record has the invariant once its registers are reset. -/
theorem coreReset_inv {s : State} (hs : s.Inv) : (coreReset s).Inv :=
  ⟨hs.cfg, reset_buf_wf, rfl, rfl, (Nat.zero_le _), rfl, Phase.noConfusion, hs.log, hs.window⟩

theorem hostMove_inv (m : HostMove) {s : State} (hs : s.Inv) : (hostMove m s).Inv := by
  cases m with
  | present w => exact hs.setPorts w true s.host
  | writeBuf i b =>
    exact ⟨hs.cfg, writeBuf_wf i b hs.buf, hs.busy, hs.seq, hs.idx, hs.outcome, hs.phase, hs.log, hs.window⟩
  | reset => exact coreReset_inv hs

/-- An idle step makes the host's next move, or waits. -/
theorem idleStep_cases (s : State) :
    idleStep s = s ∨ ∃ m rest, s.host = m :: rest ∧ idleStep s = hostMove m { s with host := rest } := by
  rcases h : s.host with _ | ⟨m, rest⟩
  · exact .inl (by simp [idleStep, h])
  · exact .inr ⟨m, rest, rfl, by simp [idleStep, h]⟩

theorem idleStep_inv {s : State} (hs : s.Inv) : (idleStep s).Inv := by
  rcases idleStep_cases s with h | ⟨m, rest, -, h⟩ <;> rw [h]
  · exact hs
  · exact hostMove_inv m (hs.setPorts s.cmd s.cmdValid rest)

/-! ### The obligations -/

/-- Settles O16: a busy step cannot be, since the invariant has BUSY = 0; each other kind of step keeps it. -/
theorem stepKeepsInv : Obligations.StepKeepsInv := by
  intro s t hs h
  rcases step_cases h with ⟨hb, -⟩ | ⟨-, -, i, -, hx⟩ | ⟨-, -, -, rfl⟩ | ⟨-, -, rfl⟩
  · rw [hs.busy] at hb
    cases hb
  · exact exec_inv (takeCommand_inv hs) hx
  · exact runIllegal_inv _ (takeCommand_inv hs)
  · exact idleStep_inv hs

/-- Settles O15: the registers are at rest, BUF and the record are empty, the configuration is any well-formed one. -/
theorem resetStateInv : Obligations.ResetStateInv :=
  ⟨Config.cfg_wellFormed, reset_buf_wf, rfl, rfl, (Nat.zero_le _), rfl, Phase.noConfusion, rfl,
    fun _ hw => absurd hw List.not_mem_nil⟩

/-- Settles O13: each of the nine values of 10_state R50 is the one the reset state is written with. -/
theorem resetValues : Obligations.ResetValues :=
  ⟨rfl, rfl, rfl, rfl, rfl, rfl, rfl, rfl, rfl⟩

end Sys2Proof.Machine
end

section
/-! PROOFS. What a step does to the enable flag and the divider of the bus controller (10_state R37, R38). -/

namespace Sys2Proof.Machine

/-- The reset input leaves the bus controller as it is (70_reset R241). -/
@[simp] theorem coreReset_bus (s : State) : (coreReset s).bus = s.bus := rfl

@[simp] theorem runIllegal_bus (w : Word) (s : State) : (runIllegal w s).bus = s.bus := rfl

/-- The host does not reach the bus controller (20_memory R73). -/
@[simp] theorem hostMove_bus (m : HostMove) (s : State) : (hostMove m s).bus = s.bus := by
  cases m <;> rfl

@[simp] theorem idleStep_bus (s : State) : (idleStep s).bus = s.bus := by
  rcases idleStep_cases s with h | ⟨m, rest, -, h⟩ <;> rw [h]
  exact hostMove_bus m _

@[simp] theorem busyStep_bus (s : State) : (busyStep s).bus = s.bus := by
  unfold busyStep
  split <;> rfl

theorem exec_init_bus {s t : State} (h : exec .init s = .next t) :
    t.bus = { s.bus with divider := dividerOf s.cfg, enabled := true } := by
  cases h
  rfl

theorem exec_divider_enabled {i : Instr} {s t : State} (hi : i ≠ .init) (h : exec i s = .next t) :
    t.bus.divider = s.bus.divider ∧ t.bus.enabled = s.bus.enabled := by
  obtain ⟨c, u, e, hu⟩ := exec_runs i s hi
  cases h.symm.trans e
  exact ⟨hu.divider, hu.enabled⟩

/-- A step leaves the bus controller, keeps its divider and enable flag, or runs INIT. -/
theorem step_divider_enabled {s t : State} (h : step s = .next t) :
    (t.bus.divider = s.bus.divider ∧ t.bus.enabled = s.bus.enabled) ∨
      (decode s.cmd = .command .init ∧ t.bus = { s.bus with divider := dividerOf s.cfg, enabled := true }) := by
  rcases step_cases h with ⟨-, rfl⟩ | ⟨-, -, i, hd, hx⟩ | ⟨-, -, -, rfl⟩ | ⟨-, -, rfl⟩
  · simp
  · by_cases hi : i = .init
    · subst hi
      exact .inr ⟨hd, exec_init_bus (s := takeCommand s) hx⟩
    · exact .inl (exec_divider_enabled (s := takeCommand s) hi hx)
  · simp
  · simp

/-- Settles O18: INIT sets the flag and writes DIVIDER; every other step keeps both. -/
theorem enableAndDivider : Obligations.EnableAndDivider := by
  intro s t h
  rcases step_divider_enabled h with ⟨hdiv, hen⟩ | ⟨hinit, hbus⟩
  · exact ⟨fun he => hen.trans he, fun hne => absurd hdiv hne⟩
  · rw [hbus]
    exact ⟨fun _ => rfl, fun _ => ⟨hinit, rfl⟩⟩

end Sys2Proof.Machine
end

section
/-! PROOFS. The commands by kind: INIT, the primitive commands (42_primitives R160) and the operations
(43_orchestrator R182); what holds after each, and what the stop of those that stop leaves. -/

namespace Sys2Proof.Machine

/-! ### The three kinds -/

theorem instr_kind (i : Instr) : i = .init ∨ (∃ p : Primitive, i = p.command) ∨ isOperation i = true := by
  cases i with
  | init => exact .inl rfl
  | start => exact .inr (.inl ⟨.start, rfl⟩)
  | rstart => exact .inr (.inl ⟨.rstart, rfl⟩)
  | addr d a => exact .inr (.inl ⟨.addr a d, rfl⟩)
  | txdata b => exact .inr (.inl ⟨.txdata b, rfl⟩)
  | rxack => exact .inr (.inl ⟨.rxack, rfl⟩)
  | rxnack => exact .inr (.inl ⟨.rxnack, rfl⟩)
  | stop => exact .inr (.inl ⟨.stop, rfl⟩)
  | bwrite a n => exact .inr (.inr rfl)
  | bread a n => exact .inr (.inr rfl)
  | wreg a b n => exact .inr (.inr rfl)
  | rreg a b n => exact .inr (.inr rfl)

@[simp] theorem isOperation_command (p : Primitive) : isOperation p.command = false := by
  cases p <;> rfl

@[simp] theorem Primitive.command_eq_stop {p : Primitive} : p.command = .stop ↔ p = .stop := by
  cases p <;> simp [Primitive.command]

/-- The latches hand a primitive command the operands it was written with (R160). -/
theorem exec_command (p : Primitive) (s : State) :
    exec p.command s = .next (complete (runPrimitive p (accept p.command.fields s)).1
      (runPrimitive p (accept p.command.fields s)).2) := by
  cases p with
  | addr a d => cases d <;> rfl
  | _ => rfl

theorem exec_command_result {p : Primitive} {s t : State} (h : exec p.command s = .next t) :
    ∃ c u, t = complete c u ∧ PrimResult p (accept p.command.fields s) u c := by
  cases h.symm.trans (exec_command p s)
  exact ⟨_, _, rfl, runPrimitive_result p _⟩

/-- An operation and STOP end with the step STOP, whatever came before. -/
theorem exec_stop_result {i : Instr} {s t : State} (hi : isOperation i = true ∨ i = .stop)
    (h : exec i s = .next t) : ∃ c v u, t = complete c u ∧ PrimResult .stop v u .none := by
  rcases hi with hop | rfl
  · obtain ⟨r, e, -⟩ := operation_result i s hop
    cases h.symm.trans e
    exact ⟨_, _, _, rfl, pStop_result _⟩
  · cases h
    exact ⟨_, _, _, rfl, pStop_result _⟩

/-! ### What holds after every command -/

theorem exec_completed {i : Instr} {s t : State} (h : exec i s = .next t) : Completed t.cause t := by
  have completed : ∀ c u, Completed (complete c u).cause (complete c u) := fun _ _ => by constructor <;> rfl
  by_cases hi : i = .init
  · subst hi
    cases h
    exact completed _ _
  · obtain ⟨c, u, e, -⟩ := exec_runs i s hi
    cases h.symm.trans e
    exact completed _ _

theorem exec_idx_le_len {i : Instr} {s t : State} (h : exec i s = .next t) : t.idx ≤ t.len := by
  by_cases hi : i = .init
  · subst hi
    cases h
    exact Nat.zero_le _
  · obtain ⟨c, u, e, hu⟩ := exec_runs i s hi
    cases h.symm.trans e
    exact hu.idx (Nat.zero_le _)

theorem exec_phase_idle {i : Instr} {s t : State} (hi : isOperation i = true ∨ i = .stop)
    (h : exec i s = .next t) : t.phase = .idle := by
  obtain ⟨c, v, u, rfl, R⟩ := exec_stop_result hi h
  exact R.phase

/-- 10_state R26: a PHASE is one of the five. -/
theorem Phase.mem_all (p : Phase) : p ∈ [.idle, .startIssued, .addressAcked, .dataPhase, .stopIssued] := by
  cases p <;> decide

/-- Settles O48: completion gives the registers of R180, acceptance and the passes IDX, the final STOP the phase. -/
theorem restAfterCommand : Obligations.RestAfterCommand := by
  intro i s
  obtain ⟨t, h⟩ := exec_next i s
  have hc := exec_completed h
  exact ⟨t, h, hc, by simp [hc.busy], exec_idx_le_len h, t.phase.mem_all, fun hi => exec_phase_idle hi h⟩

/-! ### STOP_UNCONF (10_state R31) -/

/-- A wait that starts after another event ends with a ready poll exactly when it is in time. -/
theorem getLast?_append_waitEvents {tr : List Event} {nr rd : Event} (b : Nat) (r : Response) (hne : nr ≠ rd)
    (htr : tr.getLast? ≠ some rd) :
    (tr ++ waitEvents b r nr rd).getLast? = some rd ↔ timely b r = true := by
  have missed : (tr ++ List.replicate b nr).getLast? ≠ some rd := by
    rw [List.getLast?_append, List.getLast?_replicate]
    split
    · exact htr
    · simpa using hne
  rcases h : r.notReady with _ | k
  · simpa [waitEvents, timely, h] using missed
  · by_cases hk : k < b
    · simp [waitEvents, timely, h, hk]
    · simpa [waitEvents, timely, h, hk] using missed

/-- The last event of STOP is a poll that saw the stop released exactly when its wait was in time. -/
theorem getLast?_primEvents_stop (tr : List Event) (s : State) :
    (tr ++ primEvents s .stop).getLast? = some (.pollStop false) ↔
      timely s.cfg.timeoutBudget.toNat (answer s .stop) = true := by
  have e : tr ++ primEvents s .stop = tr ++ [.trig .stop] ++
      waitEvents s.cfg.timeoutBudget.toNat (answer s .stop) (.pollStop true) (.pollStop false) := by
    simp [primEvents, primAnswerEvents, Primitive.loads, Primitive.action]
  rw [e]
  exact getLast?_append_waitEvents _ _ (by simp) (by simp)

theorem exec_stopUnconf_of_stops {i : Instr} {s t : State} (hi : isOperation i = true ∨ i = .stop)
    (h : exec i s = .next t) :
    t.stopUnconf = false ↔ t.trace.getLast? = some (Event.pollStop false) := by
  obtain ⟨c, v, u, rfl, R⟩ := exec_stop_result hi h
  rw [complete_stopUnconf, complete_trace, R.stopUnconf, R.trace, getLast?_primEvents_stop]
  simp

theorem exec_stopUnconf_of_not_stops {i : Instr} {s t : State} (hi : ¬ (isOperation i = true ∨ i = .stop))
    (h : exec i s = .next t) : t.stopUnconf = s.stopUnconf := by
  rcases instr_kind i with rfl | ⟨p, rfl⟩ | hop
  · cases h
    rfl
  · obtain ⟨c, u, rfl, R⟩ := exec_command_result h
    have hp : p ≠ .stop := by simpa using hi
    simp [R.stopUnconf, hp]
  · exact absurd (.inl hop) hi

/-- Settles O50: the commands that stop take the verdict of their last wait, the others do not write the bit. -/
theorem stopUnconfIsTheStopsVerdict : Obligations.StopUnconfIsTheStopsVerdict := by
  intro i s
  obtain ⟨t, h⟩ := exec_next i s
  have hc := exec_completed h
  refine ⟨t, h, hc.outcome, ?_⟩
  split
  · exact exec_stopUnconf_of_stops ‹_› h
  · exact exec_stopUnconf_of_not_stops ‹_› h

end Sys2Proof.Machine
end

section
/-! PROOFS. A fact kept by each part of a running command is kept by the command: the induction over bodies and data
phases (43_orchestrator R182 to R187), packaged once. -/

namespace Sys2Proof.Machine

/-- The commands whose body is a send loop (R183, R185). -/
abbrev Sends (i : Instr) : Prop := (∃ a n, i = .bwrite a n) ∨ (∃ a r n, i = .wreg a r n)

/-- The commands whose body is RECEIVE_ALL (R184, R186). -/
abbrev Receives (i : Instr) : Prop := (∃ a n, i = .bread a n) ∨ (∃ a r n, i = .rreg a r n)

theorem Sends.not_receives {i : Instr} (h : Sends i) : ¬ Receives i := by
  rcases h with ⟨a, n, rfl⟩ | ⟨a, r, n, rfl⟩ <;> simp [Receives]

/-- `P` is kept by every part of the command `i`: the moves of the sequencer, the primitives, the two writes of INIT,
and what a pass of a data phase does besides its primitive. -/
structure KeptBy (i : Instr) (P : State → Prop) : Prop where
  seq : ∀ {s} q, P s → P (setSeq q s)
  prim : ∀ {p s t c}, PrimResult p s t c → P s → P t
  init : i = .init → ∀ {s}, P s → P (bodyInit s).2
  read : Sends i → ∀ {s}, s.idx < s.len → P s → P (memRead s.idx s).2
  sent : Sends i → ∀ {s}, s.idx < s.len → P s → P (incIdx s)
  stored : Receives i → ∀ {s}, s.idx < s.len → P s → P (incIdx (memWrite s.idx s.rxdata s))

section
variable {i : Instr} {P : State → Prop} (K : KeptBy i P)
include K

theorem KeptBy.primitive (p : Primitive) {s : State} (h : P s) : P (runPrimitive p s).2 :=
  K.prim (runPrimitive_result p s) h

theorem KeptBy.runStep {q : Seq} {one : Proc} {r : Cause × State} (h : P r.2)
    (hone : P (setSeq q r.2) → P (one (setSeq q r.2)).2) : P (runStep q one r).2 := by
  rcases r with ⟨c, s⟩
  by_cases hc : c = .none
  · subst hc
    obtain ⟨q', hq⟩ := runStep_state (q := q) (p := one) (s := s)
    rw [hq]
    exact K.seq q' (hone (K.seq q h))
  · rw [runStep_failed hc]
    exact h

theorem KeptBy.sendOne (hi : Sends i) {s : State} (hlt : s.idx < s.len) (h : P s) : P (sendOne s).2 := by
  obtain ⟨t, R, hv⟩ := sendOne_result s
  have ht : P t := K.prim R (K.read hi hlt h)
  rw [hv]
  split
  · exact K.sent hi (by rw [R.idx, R.keeps.len]; exact hlt) ht
  · exact ht

theorem KeptBy.receiveOne (hi : Receives i) {s : State} (hlt : s.idx < s.len) (h : P s) : P (receiveOne s).2 := by
  obtain ⟨t, R, hv⟩ := receiveOne_result s
  have ht : P t := K.prim R h
  rw [hv]
  split
  · rw [← R.idx]
    exact K.stored hi (by rw [R.idx, R.keeps.len]; exact hlt) ht
  · exact ht

theorem KeptBy.sendAll (hi : Sends i) {r : Cause × State} (h : P r.2) : P (sendAll r).2 :=
  dataLoop_induct (P := fun r => P r.2) (fun _ _ hlt hr => K.runStep hr (K.sendOne hi hlt)) _ _ h

theorem KeptBy.receiveAll (hi : Receives i) {r : Cause × State} (h : P r.2) : P (receiveAll r).2 :=
  dataLoop_induct (P := fun r => P r.2) (fun _ _ hlt hr => K.runStep hr (K.receiveOne hi hlt)) _ _ h

theorem KeptBy.start {s : State} (h : P s) : P (Machine.runStep .start pStart (.none, s)).2 :=
  K.runStep h (K.primitive .start)

theorem KeptBy.addr {q : Seq} {r : Cause × State} (d : Dir) (h : P r.2) :
    P (Machine.runStep q (fun s => pAddr s.addr7 d s) r).2 :=
  K.runStep h (K.primitive (.addr _ d))

theorem KeptBy.reg {r : Cause × State} (h : P r.2) : P (Machine.runStep .reg (fun s => pTxdata s.byte s) r).2 :=
  K.runStep h (K.primitive (.txdata _))

theorem KeptBy.rstart {r : Cause × State} (h : P r.2) : P (Machine.runStep .rstart pRstart r).2 :=
  K.runStep h (K.primitive .rstart)

theorem KeptBy.stop {r : Cause × State} (h : P r.2) : P (pStop (setSeq .stop r.2)).2 :=
  K.primitive .stop (K.seq .stop h)

/-- What holds at acceptance and is kept by every part of a command holds just before its completion. -/
theorem KeptBy.exec {s : State} (h : P (accept i.fields s)) :
    ∃ c u, exec i s = .next (complete c u) ∧ P u := by
  rcases instr_kind i with rfl | ⟨p, rfl⟩ | hop
  · exact ⟨_, _, rfl, K.init rfl h⟩
  · exact ⟨_, _, exec_command p s, K.primitive p h⟩
  · cases i with
    | bwrite a n => exact ⟨_, _, rfl, K.stop (K.sendAll (.inl ⟨a, n, rfl⟩) (K.addr .write (K.start h)))⟩
    | bread a n => exact ⟨_, _, rfl, K.stop (K.receiveAll (.inl ⟨a, n, rfl⟩) (K.addr .read (K.start h)))⟩
    | wreg a r n =>
      exact ⟨_, _, rfl, K.stop (K.sendAll (.inr ⟨a, r, n, rfl⟩) (K.reg (K.addr .write (K.start h))))⟩
    | rreg a r n =>
      exact ⟨_, _, rfl, K.stop (K.receiveAll (.inr ⟨a, r, n, rfl⟩)
        (K.addr .read (K.rstart (K.reg (K.addr .write (K.start h))))))⟩
    | _ => cases hop

end

end Sys2Proof.Machine
end

section
/-! PROOFS. LAST_STATUS and RXDATA hold the last byte read (10_state R33, R34). -/

namespace Sys2Proof.Machine

/-! ### The reads of a primitive -/

@[simp] theorem statusReads_append (x y : List Event) : statusReads (x ++ y) = statusReads x ++ statusReads y :=
  List.filterMap_append

@[simp] theorem dataReads_append (x y : List Event) : dataReads (x ++ y) = dataReads x ++ dataReads y :=
  List.filterMap_append

/-- A wait does nothing but poll. -/
theorem eq_of_mem_waitEvents {b : Nat} {r : Response} {nr rd e : Event} (h : e ∈ waitEvents b r nr rd) :
    e = nr ∨ e = rd := by
  unfold waitEvents at h
  split at h
  · split at h
    · rcases List.mem_append.1 h with h | h
      · exact .inl (List.eq_of_mem_replicate h)
      · exact .inr (List.mem_singleton.1 h)
    · exact .inl (List.eq_of_mem_replicate h)
  · exact .inl (List.eq_of_mem_replicate h)

theorem filterMap_waitEvents {α : Type} {f : Event → Option α} {nr rd : Event} (b : Nat) (r : Response)
    (hnr : f nr = none) (hrd : f rd = none) : (waitEvents b r nr rd).filterMap f = [] :=
  List.filterMap_eq_nil_iff.2 fun _ h => by rcases eq_of_mem_waitEvents h with rfl | rfl <;> assumption

@[simp] theorem statusReads_waitEvents_done (b : Nat) (r : Response) :
    statusReads (waitEvents b r (.pollDone false) (.pollDone true)) = [] := filterMap_waitEvents b r rfl rfl

@[simp] theorem statusReads_waitEvents_stop (b : Nat) (r : Response) :
    statusReads (waitEvents b r (.pollStop true) (.pollStop false)) = [] := filterMap_waitEvents b r rfl rfl

@[simp] theorem dataReads_waitEvents_done (b : Nat) (r : Response) :
    dataReads (waitEvents b r (.pollDone false) (.pollDone true)) = [] := filterMap_waitEvents b r rfl rfl

@[simp] theorem dataReads_waitEvents_stop (b : Nat) (r : Response) :
    dataReads (waitEvents b r (.pollStop true) (.pollStop false)) = [] := filterMap_waitEvents b r rfl rfl

@[simp] theorem statusReads_loads (p : Primitive) : statusReads p.loads = [] := by cases p <;> rfl

@[simp] theorem dataReads_loads (p : Primitive) : dataReads p.loads = [] := by cases p <;> rfl

/-- A primitive reads the status once, when its wait is in time; STOP reads none (R150, R159). -/
theorem statusReads_primEvents (s : State) (p : Primitive) :
    statusReads (primEvents s p) =
      if p ≠ .stop ∧ timely s.cfg.timeoutBudget.toNat (answer s p) = true then [(answer s p).status] else [] := by
  have htrig : statusReads [.trig p.action] = [] := rfl
  simp only [primEvents, primAnswerEvents, statusReads_append, statusReads_loads, htrig, List.nil_append]
  by_cases hp : p = .stop
  · simp [hp]
  · have hdata : statusReads (if receives p.action = true ∧ primCause s.cfg p (answer s p) = .none then
        [.rdData (answer s p).data] else []) = [] := by split <;> rfl
    rw [if_neg hp, statusReads_append, statusReads_append, statusReads_waitEvents_done, hdata, List.append_nil]
    simp only [ne_eq, hp, not_false_eq_true, true_and]
    split <;> rfl

/-- A primitive reads the data register once, when it is a receive whose cause is None (R157, R158). -/
theorem dataReads_primEvents (s : State) (p : Primitive) :
    dataReads (primEvents s p) =
      if receives p.action = true ∧ primCause s.cfg p (answer s p) = .none then [(answer s p).data] else [] := by
  have htrig : dataReads [.trig p.action] = [] := rfl
  simp only [primEvents, primAnswerEvents, dataReads_append, dataReads_loads, htrig, List.nil_append]
  by_cases hp : p = .stop
  · simp [hp, Primitive.action, receives]
  · have hstatus : dataReads (if timely s.cfg.timeoutBudget.toNat (answer s p) = true then
        [.rdStatus (answer s p).status] else []) = [] := by split <;> rfl
    rw [if_neg hp, dataReads_append, dataReads_append, dataReads_waitEvents_done, hstatus]
    split <;> rfl

/-! ### The registers -/

/-- The events from `a` to `s` are `new`, and both registers hold the last byte read in them, or what they held. -/
structure HoldsLastReads (a s : State) (new : List Event) : Prop where
  trace : s.trace = a.trace ++ new
  lastStatus : s.lastStatus = ((statusReads new).getLast?).getD a.lastStatus
  rxdata : s.rxdata = ((dataReads new).getLast?).getD a.rxdata

theorem HoldsLastReads.refl (s : State) : HoldsLastReads s s [] := ⟨by simp, rfl, rfl⟩

theorem getD_getLast?_append (x y : List Byte) (b : Byte) :
    ((x ++ y).getLast?).getD b = (y.getLast?).getD ((x.getLast?).getD b) := by
  rw [List.getLast?_append]
  cases y.getLast? <;> rfl

theorem HoldsLastReads.trans {a s t : State} {x y : List Event} (h : HoldsLastReads a s x)
    (k : HoldsLastReads s t y) : HoldsLastReads a t (x ++ y) where
  trace := by rw [k.trace, h.trace, List.append_assoc]
  lastStatus := by rw [k.lastStatus, h.lastStatus, statusReads_append, getD_getLast?_append]
  rxdata := by rw [k.rxdata, h.rxdata, dataReads_append, getD_getLast?_append]

theorem PrimResult.holdsLastReads {p : Primitive} {s t : State} {c : Cause} (R : PrimResult p s t c) :
    HoldsLastReads s t (primEvents s p) where
  trace := R.trace
  lastStatus := by
    rw [R.lastStatus, statusReads_primEvents]
    split <;> rfl
  rxdata := by
    rw [R.rxdata, dataReads_primEvents, R.cause]
    split <;> rfl

theorem holdsLastReads_bodyInit (s : State) :
    HoldsLastReads s (bodyInit s).2 [.wrDiv (dividerOf s.cfg), .setEn] where
  trace := bodyInit_trace s
  lastStatus := bodyInit_lastStatus s
  rxdata := bodyInit_rxdata s

/-- Every part of a command extends the events and keeps the registers at the last read. -/
theorem keptBy_holdsLastReads (i : Instr) (a : State) : KeptBy i (fun s => ∃ new, HoldsLastReads a s new) where
  seq q := fun ⟨_, h⟩ => ⟨_, h.trans (y := []) ⟨by simp, rfl, rfl⟩⟩
  prim R := fun ⟨_, h⟩ => ⟨_, h.trans R.holdsLastReads⟩
  init _ := fun ⟨_, h⟩ => ⟨_, h.trans (holdsLastReads_bodyInit _)⟩
  read _ {s} _ := fun ⟨_, h⟩ => ⟨_, h.trans (y := [.bufRd s.idx (readBuf s s.idx)]) ⟨rfl, rfl, rfl⟩⟩
  sent _ {s} _ := fun ⟨_, h⟩ => ⟨_, h.trans (y := []) ⟨by simp, rfl, rfl⟩⟩
  stored _ {s} _ := fun ⟨_, h⟩ => ⟨_, h.trans (y := [.bufWr s.idx s.rxdata]) ⟨rfl, rfl, rfl⟩⟩

/-- What a command does to LAST_STATUS and RXDATA. -/
theorem exec_holdsLastReads {i : Instr} {s t : State} (h : exec i s = .next t) :
    ∃ new, HoldsLastReads s t new := by
  obtain ⟨c, u, e, new, hu⟩ := (keptBy_holdsLastReads i _).exec ⟨[], HoldsLastReads.refl (accept i.fields s)⟩
  cases h.symm.trans e
  exact ⟨new, hu.trace, hu.lastStatus, hu.rxdata⟩

/-- Settles O51: LAST_STATUS follows the status reads through every part of a command. -/
theorem lastStatusIsTheLastRead : Obligations.LastStatusIsTheLastRead := by
  intro i s
  obtain ⟨t, h⟩ := exec_next i s
  obtain ⟨new, hn⟩ := exec_holdsLastReads h
  exact ⟨t, new, h, hn.trace, hn.lastStatus⟩

/-- The data reads of a receive on its own: one, or none if it failed. -/
theorem exec_receive_dataReads {p : Primitive} {s t : State} {new : List Event} (hp : receives p.action = true)
    (h : exec p.command s = .next t) (ht : t.trace = s.trace ++ new) :
    (dataReads new).length = if t.cause = .none then 1 else 0 := by
  obtain ⟨c, u, rfl, R⟩ := exec_command_result h
  have hnew : new = primEvents (accept p.command.fields s) p := List.append_cancel_left (ht.symm.trans R.trace)
  rw [hnew, dataReads_primEvents, complete_cause, R.cause]
  simp only [hp, true_and, accept_cfg]
  exact apply_ite List.length _ _ _

/-- Settles O52: RXDATA follows the data reads through every part of a command; a receive makes one on None. -/
theorem rxdataIsTheLastRead : Obligations.RxdataIsTheLastRead := by
  intro i s
  obtain ⟨t, h⟩ := exec_next i s
  obtain ⟨new, hn⟩ := exec_holdsLastReads h
  refine ⟨t, new, h, hn.trace, hn.rxdata, ?_⟩
  rintro (rfl | rfl)
  · exact exec_receive_dataReads (p := .rxack) rfl h hn.trace
  · exact exec_receive_dataReads (p := .rxnack) rfl h hn.trace

end Sys2Proof.Machine
end

section
/-! PROOFS. BUF: buffers in canonical form that hold the same are the same (10_state R23), and which commands access
BUF, where, and with what (20_memory R61). -/

namespace Sys2Proof.Machine

/-! ### The canonical form -/

/-- In the canonical form the value at an address is the one entry with that address. -/
theorem Memory.lookup_eq_some_iff {m : Memory} (hm : m.Pairwise fun x y => x.1 < y.1) {a : Nat} {v : Byte} :
    Memory.lookup m a = some v ↔ (a, v) ∈ m := by
  induction m with
  | nil => simp [Memory.lookup]
  | cons c m ih =>
    obtain ⟨hc, hm⟩ := List.pairwise_cons.1 hm
    simp only [Memory.lookup, List.mem_cons]
    split
    case isTrue ha =>
      have hnot : (a, v) ∉ m := fun h => absurd (hc _ h) (by omega)
      simp [hnot, Prod.ext_iff, ha, eq_comm]
    case isFalse ha =>
      have hne : (a, v) ≠ c := fun h => ha (by rw [← h])
      simp [hne, ih hm]

/-- No address is listed twice. -/
theorem Memory.nodup {m : Memory} (hm : m.Pairwise fun x y => x.1 < y.1) : m.Nodup :=
  hm.imp fun hlt heq => absurd (congrArg Prod.fst heq) (Nat.ne_of_lt hlt)

/-- Settles O55: both list the same entries, each in the order of the addresses. -/
theorem bufferCanonical : Obligations.BufferCanonical := by
  rintro m n ⟨hm, -⟩ ⟨hn, -⟩ h
  have hperm : m.Perm n := (List.perm_ext_iff_of_nodup (Memory.nodup hm) (Memory.nodup hn)).2 fun ⟨a, v⟩ => by
    rw [← Memory.lookup_eq_some_iff hm, h a, Memory.lookup_eq_some_iff hn]
  exact hperm.eq_of_pairwise (fun _ _ _ _ hab hba => absurd hab (Nat.lt_asymm hba)) hm hn

/-! ### The accesses of a command -/

/-- A primitive does not access BUF. -/
theorem isBufEvent_of_mem_primEvents {s : State} {p : Primitive} {e : Event} (h : e ∈ primEvents s p) :
    isBufEvent e = false := by
  have hload : e ∈ p.loads → isBufEvent e = false := by
    cases p <;> simp +contextual [Primitive.loads, isBufEvent]
  have hpoll : ∀ {b r nr rd}, isBufEvent nr = false → isBufEvent rd = false →
      e ∈ waitEvents b r nr rd → isBufEvent e = false := fun hnr hrd he => by
    rcases eq_of_mem_waitEvents he with rfl | rfl <;> assumption
  have hread : ∀ {c : Prop} [Decidable c] {x}, isBufEvent x = false →
      e ∈ (if c then [x] else []) → isBufEvent e = false := fun hx he => by
    split at he
    · rwa [List.mem_singleton.1 he]
    · cases he
  simp only [primEvents, primAnswerEvents, List.mem_append, List.mem_singleton] at h
  rcases h with (h | rfl) | h
  · exact hload h
  · rfl
  · split at h
    · exact hpoll rfl rfl h
    · simp only [List.mem_append] at h
      rcases h with (h | h) | h
      · exact hpoll rfl rfl h
      · exact hread rfl h
      · exact hread rfl h

/-- The events of command `i` from its acceptance `a` to `s` are `new`, and their BUF accesses are as they should be:
reads in a send loop, of what BUF held at acceptance; writes in RECEIVE_ALL, below IDX, of what BUF holds in `s`. -/
structure BufRecord (i : Instr) (a s : State) (new : List Event) : Prop where
  trace : s.trace = a.trace ++ new
  same : Sends i → ∀ j, readBuf s j = readBuf a j
  reads : ∀ {j b}, Event.bufRd j b ∈ new → Sends i ∧ j < s.len ∧ b = readBuf a j
  writes : ∀ {j b}, Event.bufWr j b ∈ new → Receives i ∧ j < s.idx ∧ j < s.len ∧ b = readBuf s j

theorem BufRecord.refl (i : Instr) (s : State) : BufRecord i s s [] :=
  ⟨by simp, fun _ _ => rfl, fun h => absurd h List.not_mem_nil, fun h => absurd h List.not_mem_nil⟩

/-- A part that leaves BUF alone. -/
theorem BufRecord.quiet {i : Instr} {a s t : State} {x y : List Event} (h : BufRecord i a s x)
    (htrace : t.trace = s.trace ++ y) (hy : ∀ e ∈ y, isBufEvent e = false) (hlen : t.len = s.len)
    (hidx : s.idx ≤ t.idx) (hbuf : ∀ j, readBuf t j = readBuf s j) : BufRecord i a t (x ++ y) where
  trace := by rw [htrace, h.trace, List.append_assoc]
  same hi j := (hbuf j).trans (h.same hi j)
  reads hm := by
    rcases List.mem_append.1 hm with hm | hm
    · rw [hlen]
      exact h.reads hm
    · cases hy _ hm
  writes {j b} hm := by
    rcases List.mem_append.1 hm with hm | hm
    · obtain ⟨hi, hj, hl, hb⟩ := h.writes hm
      rw [hlen, hbuf]
      exact ⟨hi, Nat.lt_of_lt_of_le hj hidx, hl, hb⟩
    · cases hy _ hm

/-- A count below LEN does not wrap. -/
theorem idx_lt_incIdx {s : State} (h : s.idx < s.len) : s.idx < (incIdx s).idx := by
  rw [incIdx_idx]
  bv_omega

theorem BufRecord.read {i : Instr} {a s : State} {x : List Event} (h : BufRecord i a s x) (hi : Sends i)
    (hlt : s.idx < s.len) :
    BufRecord i a (memRead s.idx s).2 (x ++ [.bufRd s.idx (readBuf s s.idx)]) where
  trace := by simp [memRead, h.trace]
  same := h.same
  reads hm := by
    rcases List.mem_append.1 hm with hm | hm
    · exact h.reads hm
    · obtain ⟨rfl, rfl⟩ : _ ∧ _ := by simpa using hm
      exact ⟨hi, hlt, h.same hi _⟩
  writes hm := by
    rcases List.mem_append.1 hm with hm | hm
    · exact h.writes hm
    · cases List.mem_singleton.1 hm

theorem BufRecord.stored {i : Instr} {a s : State} {x : List Event} (h : BufRecord i a s x) (hi : Receives i)
    (hlt : s.idx < s.len) :
    BufRecord i a (incIdx (memWrite s.idx s.rxdata s)) (x ++ [.bufWr s.idx s.rxdata]) where
  trace := by simp [memWrite, h.trace]
  same hs := absurd hi hs.not_receives
  reads hm := by
    rcases List.mem_append.1 hm with hm | hm
    · exact h.reads hm
    · cases List.mem_singleton.1 hm
  writes {j b} hm := by
    have hinc : s.idx < (incIdx (memWrite s.idx s.rxdata s)).idx := idx_lt_incIdx hlt
    rcases List.mem_append.1 hm with hm | hm
    · obtain ⟨-, hj, hl, hb⟩ := h.writes hm
      have hne : j ≠ s.idx := fun he => Nat.lt_irrefl _ (he ▸ hj : s.idx < s.idx)
      exact ⟨hi, Nat.lt_trans hj hinc, hl, hb.trans (readBuf_writeBuf_of_ne _ s hne).symm⟩
    · obtain ⟨rfl, rfl⟩ : _ ∧ _ := by simpa using hm
      exact ⟨hi, hinc, hlt, (readBuf_writeBuf_self _ _ s).symm⟩

theorem keptBy_bufRecord (i : Instr) (a : State) : KeptBy i (fun s => ∃ new, BufRecord i a s new) where
  seq q := fun ⟨_, h⟩ => ⟨_, h.quiet (y := []) (by simp) (by simp) rfl (Nat.le_refl _) fun _ => rfl⟩
  prim R := fun ⟨_, h⟩ => ⟨_, h.quiet R.trace (fun _ => isBufEvent_of_mem_primEvents) R.keeps.len
    (Nat.le_of_eq (by rw [R.idx])) (readBuf_congr R.buf R.keeps.resets)⟩
  init _ {s} := fun ⟨_, h⟩ => ⟨_, h.quiet (bodyInit_trace s) (by simp [isBufEvent]) (bodyInit_keeps s).len
    (Nat.le_of_eq (by rw [bodyInit_idx])) (readBuf_congr (bodyInit_buf s) (bodyInit_keeps s).resets)⟩
  read hi {_} hlt := fun ⟨_, h⟩ => ⟨_, h.read hi hlt⟩
  sent _ {_} hlt := fun ⟨_, h⟩ =>
    ⟨_, h.quiet (y := []) (by simp) (by simp) rfl (Nat.le_of_lt (idx_lt_incIdx hlt)) fun _ => rfl⟩
  stored hi {_} hlt := fun ⟨_, h⟩ => ⟨_, h.stored hi hlt⟩

/-- Settles O54: the record of BUF accesses stays as it should be through every part of a command. -/
theorem bufferAccesses : Obligations.BufferAccesses := by
  intro i s
  obtain ⟨c, u, e, new, h⟩ := (keptBy_bufRecord i _).exec ⟨[], BufRecord.refl i (accept i.fields s)⟩
  exact ⟨_, new, e, h.trace, fun _ _ => h.reads, fun _ _ => h.writes⟩

end Sys2Proof.Machine
end

section
/-! PROOFS. The buffer primitives (20_memory R61) and the moves of the host while BUSY = 0 (30_encoding R92, 70_reset
R240). -/

namespace Sys2Proof.Machine

/-! ### The buffer primitives -/

@[simp] theorem memRead_value (i : Byte) (s : State) : (memRead i s).1 = readBuf s i := rfl
@[simp] theorem memRead_trace (i : Byte) (s : State) :
    (memRead i s).2.trace = s.trace ++ [.bufRd i (readBuf s i)] := rfl
@[simp] theorem readBuf_memRead (i : Byte) (s : State) (j : Byte) : readBuf (memRead i s).2 j = readBuf s j := rfl

@[simp] theorem memWrite_trace (i v : Byte) (s : State) : (memWrite i v s).trace = s.trace ++ [.bufWr i v] := rfl

theorem readBuf_memWrite_self (i v : Byte) (s : State) : readBuf (memWrite i v s) i = v :=
  (readBuf_emit _ _ i).trans (readBuf_writeBuf_self i v s)

theorem readBuf_memWrite_of_ne {i j : Byte} (v : Byte) (s : State) (h : j ≠ i) :
    readBuf (memWrite i v s) j = readBuf s j :=
  (readBuf_emit _ _ j).trans (readBuf_writeBuf_of_ne v s h)

/-- Settles O53: a read returns the byte and records it, a write sets that byte alone and records it. -/
theorem bufferPrimitives : Obligations.BufferPrimitives := fun i v s =>
  ⟨memRead_value i s, memRead_trace i s, readBuf_memRead i s, readBuf_memWrite_self i v s, memWrite_trace i v s,
    fun _ => readBuf_memWrite_of_ne v s⟩

/-! ### The moves of the host -/

theorem step_of_idle {s : State} (hb : s.busy = false) (hv : s.cmdValid = false) : step s = .next (idleStep s) := by
  simp [step, hb, hv]

theorem idleStep_of_nil {s : State} (h : s.host = []) : idleStep s = s := by
  simp [idleStep, h]

theorem idleStep_of_cons {s : State} {m : HostMove} {rest : List HostMove} (h : s.host = m :: rest) :
    idleStep s = hostMove m { s with host := rest } := by
  simp [idleStep, h]

/-- Settles O12: with no word presented a step is the first move of the list, or nothing when the list is empty. -/
theorem hostMovesWhileIdle : Obligations.HostMovesWhileIdle := by
  intro s hb hv
  rw [step_of_idle hb hv]
  refine ⟨fun h => ?_, fun w rest h => ?_, fun i b rest h => ?_⟩
  · rw [idleStep_of_nil h]
  · rw [idleStep_of_cons h, hostMove]
  · rw [idleStep_of_cons h, hostMove]
    exact ⟨_, rfl, readBuf_writeBuf_self i b _, fun j hj => readBuf_writeBuf_of_ne b { s with host := rest } hj, rfl⟩

end Sys2Proof.Machine
end

section
/-! PROOFS. The order rule (20_memory R70): every part of a command gives events that are in order whatever came before
them, so the events of the command are in order. -/

namespace Sys2Proof.Machine

/-! ### Ordered traces -/

theorem ordered_cons (e x : Event) (xs : List Event) : ordered e (x :: xs) = (ordered e [x] && ordered x xs) := by
  cases x <;> simp [ordered]

/-- The second part is in order after the last event of the first. -/
theorem ordered_append (e : Event) (xs ys : List Event) :
    ordered e (xs ++ ys) = (ordered e xs && ordered (xs.getLast?.getD e) ys) := by
  induction xs generalizing e with
  | nil => simp [ordered]
  | cons x xs ih =>
    rw [List.cons_append, ordered_cons, ih, ordered_cons e x xs, Bool.and_assoc, List.getLast?_cons, Option.getD_some]

/-- Only reads can be out of order. -/
theorem ordered_of_no_reads {xs : List Event} (hs : statusReads xs = []) (hd : dataReads xs = []) (e : Event) :
    ordered e xs = true := by
  induction xs generalizing e with
  | nil => rfl
  | cons x xs ih =>
    obtain ⟨hsx, hsxs⟩ := List.append_eq_nil_iff.1 ((statusReads_append [x] xs).symm.trans hs)
    obtain ⟨hdx, hdxs⟩ := List.append_eq_nil_iff.1 ((dataReads_append [x] xs).symm.trans hd)
    have hx : ordered e [x] = true := by
      cases x with
      | rdStatus v => cases hsx
      | rdData d => cases hdx
      | _ => rfl
    rw [ordered_cons, hx, ih hsxs hdxs, Bool.and_self]

/-! ### The events of a primitive -/

/-- The status is read only after a wait in time, whose last poll is ready (42_primitives R150). -/
theorem ordered_stepEvents (e : Event) (b : Nat) (r : Response) : ordered e (stepEvents b r) = true := by
  have hwait : ordered e (waitEvents b r (.pollDone false) (.pollDone true)) = true :=
    ordered_of_no_reads (by simp) (by simp) e
  rw [stepEvents, ordered_append, hwait, Bool.true_and]
  split
  case isTrue ht =>
    have hlast := (getLast?_append_waitEvents (tr := []) (nr := .pollDone false) (rd := .pollDone true) b r
      (by simp) (by simp)).2 ht
    rw [List.nil_append] at hlast
    simp [hlast, ordered]
  case isFalse => rfl

/-- After a wait in time the last event of STEP is the status read. -/
theorem getLast?_stepEvents {b : Nat} {r : Response} (h : timely b r = true) :
    (stepEvents b r).getLast? = some (.rdStatus r.status) := by
  simp [stepEvents, h]

theorem timely_of_primCause_none {cfg : Cfg} {p : Primitive} {r : Response} (hp : p ≠ .stop)
    (h : primCause cfg p r = .none) : timely cfg.timeoutBudget.toNat r = true := by
  by_contra ht
  simp [primCause, hp, ht] at h

/-- The data register is read only on None, right after the status (R157, R158); STOP reads nothing (R159). -/
theorem ordered_primAnswerEvents (e : Event) (cfg : Cfg) (p : Primitive) (r : Response) :
    ordered e (primAnswerEvents cfg p r) = true := by
  by_cases hp : p = .stop
  · rw [primAnswerEvents, if_pos hp]
    exact ordered_of_no_reads (by simp) (by simp) e
  · rw [primAnswerEvents, if_neg hp, ← stepEvents, ordered_append, ordered_stepEvents, Bool.true_and]
    split
    case isTrue h => simp [getLast?_stepEvents (timely_of_primCause_none hp h.2), ordered]
    case isFalse => rfl

theorem ordered_primEvents (e : Event) (s : State) (p : Primitive) : ordered e (primEvents s p) = true := by
  have hload : ordered e (p.loads ++ [.trig p.action]) = true := by cases p <;> rfl
  rw [primEvents, ordered_append, hload, ordered_primAnswerEvents, Bool.and_self]

/-! ### The events of a command -/

/-- The events from `a` to `s` are in order, whatever event came before them. -/
def OrderedSince (a s : State) : Prop := ∃ new, s.trace = a.trace ++ new ∧ ∀ e, ordered e new = true

theorem OrderedSince.refl (s : State) : OrderedSince s s := ⟨[], by simp, fun _ => rfl⟩

theorem OrderedSince.extend {a s t : State} (h : OrderedSince a s) {new : List Event}
    (ht : t.trace = s.trace ++ new) (hnew : ∀ e, ordered e new = true) : OrderedSince a t := by
  obtain ⟨old, hs, hold⟩ := h
  exact ⟨old ++ new, by rw [ht, hs, List.append_assoc], fun e => by rw [ordered_append, hold, hnew, Bool.and_self]⟩

theorem keptBy_orderedSince (i : Instr) (a : State) : KeptBy i (OrderedSince a) where
  seq _ h := h
  prim R h := h.extend R.trace fun e => ordered_primEvents e _ _
  init _ {s} h := h.extend (bodyInit_trace s) fun _ => rfl
  read _ {s} _ h := h.extend (memRead_trace s.idx s) fun _ => rfl
  sent _ {_} _ h := h
  stored _ {s} _ h := h.extend (memWrite_trace s.idx s.rxdata s) fun _ => rfl

/-- Settles O49: every part of a command keeps its events in order. -/
theorem statusReadOnlyAfterReadyPoll : Obligations.StatusReadOnlyAfterReadyPoll := by
  intro i s e
  obtain ⟨c, u, hexec, new, htrace, hnew⟩ := (keptBy_orderedSince i _).exec (OrderedSince.refl (accept i.fields s))
  exact ⟨_, new, hexec, htrace, hnew e⟩

end Sys2Proof.Machine
end

section
/-! PROOFS. The decoder and the encoder undo each other (30_encoding R91, R93, R95): both directions follow from one
inversion lemma of `decodeFields`. -/

namespace Sys2Proof

/-! ### The must-be-zero rules -/

theorem zeroUnless_iff {n : Nat} {used : Bool} {v : BitVec n} : zeroUnless used v ↔ ¬ (used = false ∧ v ≠ 0) := by
  cases used <;> simp [zeroUnless]

theorem checkZeros_of_mustBeZero {f : Cmd32} {u : Used} (h : f.MustBeZero u) (i : Instr) :
    checkZeros f u i = .command i := by
  obtain ⟨hz1, hz2, hdir, haddr, hbyte, hlen⟩ := h
  rw [checkZeros, if_neg (not_not.2 hz1), if_neg (zeroUnless_iff.1 hdir), if_neg (not_not.2 hz2),
    if_neg (zeroUnless_iff.1 haddr), if_neg (zeroUnless_iff.1 hbyte), if_neg (zeroUnless_iff.1 hlen)]

theorem checkZeros_of_not_mustBeZero {f : Cmd32} {u : Used} (h : ¬ f.MustBeZero u) (i : Instr) :
    ∃ why, checkZeros f u i = .illegal why := by
  unfold checkZeros
  split_ifs with hz1 hdir hz2 haddr hbyte hlen
  case neg =>
    exact (h ⟨not_not.1 hz1, not_not.1 hz2, zeroUnless_iff.2 hdir, zeroUnless_iff.2 haddr, zeroUnless_iff.2 hbyte,
      zeroUnless_iff.2 hlen⟩).elim
  all_goals exact ⟨_, rfl⟩

theorem Cmd32.wellFormed_iff {f : Cmd32} {u : Used} (h : Used.ofOp f.op = some u) :
    f.wellFormed = true ↔ f.MustBeZero u := by
  rw [Cmd32.wellFormed, h, Option.any_some, decide_eq_true_iff]

theorem Cmd32.wellFormed_of_ofOp_none {f : Cmd32} (h : Used.ofOp f.op = none) : f.wellFormed = false := by
  rw [Cmd32.wellFormed, h, Option.any_none]

/-- The fields `f` with every must-be-zero field cleared. -/
def Cmd32.cleared (f : Cmd32) (u : Used) : Cmd32 where
  op := f.op
  z1 := 0
  dir := if u.dir then f.dir else 0
  z2 := 0
  addr7 := if u.addr7 then f.addr7 else 0
  byte := if u.byte then f.byte else 0
  len := if u.len then f.len else 0

theorem ite_eq_of_zeroUnless {n : Nat} {used : Bool} {v : BitVec n} (h : zeroUnless used v) :
    (if used then v else 0) = v := by
  rcases h with rfl | rfl
  · rfl
  · exact ite_self 0

theorem Cmd32.cleared_of_mustBeZero {f : Cmd32} {u : Used} (h : f.MustBeZero u) : f.cleared u = f := by
  obtain ⟨hz1, hz2, hdir, haddr, hbyte, hlen⟩ := h
  rw [Cmd32.cleared, ite_eq_of_zeroUnless hdir, ite_eq_of_zeroUnless haddr, ite_eq_of_zeroUnless hbyte,
    ite_eq_of_zeroUnless hlen, ← hz1, ← hz2]

/-! ### The opcode map -/

theorem decodeFields_fields (i : Instr) : decodeFields i.fields = .command i := by
  cases i with
  | addr d a => cases d <;> rfl
  | _ => rfl

/-- Everything `decodeFields` can do: reject the opcode, or check the zeros for the command made of the fields that its
opcode uses. -/
theorem decodeFields_cases (f : Cmd32) :
    (Used.ofOp f.op = none ∧ decodeFields f = .illegal .opcode) ∨
    ∃ u i, Used.ofOp f.op = some u ∧ decodeFields f = checkZeros f u i ∧ i.fields = f.cleared u := by
  unfold decodeFields
  split
  case h_13 => exact .inl ⟨by simp [Used.ofOp, *], rfl⟩
  all_goals
    rename_i hop
    refine .inr ⟨_, _, by simp [Used.ofOp, hop], rfl, ?_⟩
    simp only [Instr.fields, Cmd32.cleared, Dir.toBit_ofBit, Cmd32.mk.injEq, if_true, Bool.false_eq_true, if_false,
      and_true]
    exact BitVec.eq_of_toNat_eq hop.symm

/-- Everything `decode` can do: answer the command that has the fields of a well-formed word, or reject the word. -/
theorem decode_cases (w : Word) :
    ((Cmd32.ofWord w).wellFormed = true ∧ ∃ i, decode w = .command i ∧ i.fields = Cmd32.ofWord w) ∨
    ((Cmd32.ofWord w).wellFormed = false ∧ ∃ why, decode w = .illegal why) := by
  rcases decodeFields_cases (Cmd32.ofWord w) with ⟨hop, hd⟩ | ⟨u, i, hop, hd, hi⟩
  · exact .inr ⟨Cmd32.wellFormed_of_ofOp_none hop, _, hd⟩
  · by_cases hz : (Cmd32.ofWord w).MustBeZero u
    · exact .inl ⟨(Cmd32.wellFormed_iff hop).2 hz, i, hd.trans (checkZeros_of_mustBeZero hz i),
        hi.trans (Cmd32.cleared_of_mustBeZero hz)⟩
    · obtain ⟨why, hw⟩ := checkZeros_of_not_mustBeZero hz i
      exact .inr ⟨Bool.eq_false_iff.2 (mt (Cmd32.wellFormed_iff hop).1 hz), why, hd.trans hw⟩

theorem decode_eq_command {w : Word} {i : Instr} (h : decode w = .command i) :
    i.fields = Cmd32.ofWord w ∧ (Cmd32.ofWord w).wellFormed = true := by
  rcases decode_cases w with ⟨hwf, j, hj, hfields⟩ | ⟨-, why, hw⟩
  · cases h.symm.trans hj
    exact ⟨hfields, hwf⟩
  · cases h.symm.trans hw

/-! ### The obligations -/

/-- Settles O1: the fields of the encoding are the fields of the command, which the opcode map sends back to it. -/
theorem decodeOfEncode : Obligations.DecodeOfEncode := by
  intro i _
  rw [decode, ofWord_encode, decodeFields_fields]

/-- Settles O2: the command has the fields of the word, and the word is the word of its fields. -/
theorem encodeOfDecode : Obligations.EncodeOfDecode := by
  intro w i h
  rw [encode, (decode_eq_command h).1, Cmd32.toWord_ofWord]

/-- Settles O5: each of the six words is one of the decoding vectors (95_test_vectors 2.8). -/
theorem decodedWords : Obligations.DecodedWords := by
  unfold Obligations.DecodedWords
  decide

end Sys2Proof
end

section
/-! PROOFS. The match and mask table (30_encoding R94): a row matches the well-formed words of its opcode, so a word that
is not well-formed matches none, and every other word matches the row of its command. -/

namespace Sys2Proof

/-! ### A row, in fields -/

theorem Cmd32.ofWord_injective : Function.Injective Cmd32.ofWord :=
  Function.LeftInverse.injective Cmd32.toWord_ofWord

theorem Cmd32.ofWord_and (v w : Word) : Cmd32.ofWord (v &&& w) =
    ⟨(ofWord v).op &&& (ofWord w).op, (ofWord v).z1 &&& (ofWord w).z1, (ofWord v).dir &&& (ofWord w).dir,
      (ofWord v).z2 &&& (ofWord w).z2, (ofWord v).addr7 &&& (ofWord w).addr7, (ofWord v).byte &&& (ofWord w).byte,
      (ofWord v).len &&& (ofWord w).len⟩ := by
  simp only [Cmd32.ofWord, BitVec.extractLsb'_and]

/-- The opcode of a row. -/
def Row.op (r : Row) : BitVec 4 := (Cmd32.ofWord r.pattern).op

/-- The mask of a field: all of it must match, unless the command uses it. -/
def fieldMask (n : Nat) (used : Bool) : BitVec n := if used then 0 else BitVec.allOnes n

theorem and_fieldMask_eq_zero_iff {n : Nat} {used : Bool} {v : BitVec n} :
    v &&& fieldMask n used = 0 ↔ zeroUnless used v := by
  cases used <;> simp [fieldMask, zeroUnless]

/-- The mask of a command that uses the fields `u`. -/
def Used.mask (u : Used) : Cmd32 where
  op := BitVec.allOnes 4
  z1 := BitVec.allOnes 3
  dir := fieldMask 1 u.dir
  z2 := BitVec.allOnes 1
  addr7 := fieldMask 7 u.addr7
  byte := fieldMask 8 u.byte
  len := fieldMask 8 u.len

/-- The table is the one that the opcodes and fields used of R93 and the zeros of R95 give. -/
theorem opcodeTable_fields : ∀ r ∈ opcodeTable, Cmd32.ofWord r.pattern = ⟨r.op, 0, 0, 0, 0, 0, 0⟩ ∧
    (Used.ofOp r.op).map Used.mask = some (Cmd32.ofWord r.mask) := by
  decide

theorem Row.matches_iff {r : Row} (hr : r ∈ opcodeTable) (w : Word) :
    r.Matches w ↔ (Cmd32.ofWord w).op = r.op ∧ (Cmd32.ofWord w).wellFormed = true := by
  obtain ⟨hpattern, hmask⟩ := opcodeTable_fields r hr
  obtain ⟨u, hop, hu⟩ := Option.map_eq_some_iff.1 hmask
  have hfields : r.Matches w ↔ (Cmd32.ofWord w).op = r.op ∧ (Cmd32.ofWord w).MustBeZero u := by
    rw [Row.Matches, ← Cmd32.ofWord_injective.eq_iff, Cmd32.ofWord_and, hpattern, ← hu]
    simp only [Used.mask, BitVec.and_allOnes, and_fieldMask_eq_zero_iff, Cmd32.mk.injEq, Cmd32.MustBeZero]
    tauto
  rw [hfields]
  exact and_congr_right fun h => (Cmd32.wellFormed_iff (h ▸ hop)).symm

/-! ### The row of a command -/

/-- The rows stand in the order of the opcodes, from 1 on. -/
theorem Instr.getElem?_opcodeTable (i : Instr) :
    (opcodeTable[i.fields.op.toNat - 1]?).map (fun r => (r.mnemonic, r.op)) = some (i.mnemonic, i.fields.op) := by
  cases i <;> rfl

theorem Instr.exists_row (i : Instr) : ∃ r ∈ opcodeTable, r.mnemonic = i.mnemonic ∧ r.op = i.fields.op := by
  obtain ⟨r, hr, h⟩ := Option.map_eq_some_iff.1 i.getElem?_opcodeTable
  exact ⟨r, List.mem_of_getElem? hr, congrArg Prod.fst h, congrArg Prod.snd h⟩

theorem Row.mnemonic_eq_iff : ∀ r ∈ opcodeTable, ∀ q ∈ opcodeTable, r.mnemonic = q.mnemonic ↔ r.op = q.op := by
  decide

theorem Instr.mnemonic_eq_iff {r : Row} (hr : r ∈ opcodeTable) (i : Instr) :
    i.mnemonic = r.mnemonic ↔ i.fields.op = r.op := by
  obtain ⟨q, hq, hm, hop⟩ := i.exists_row
  rw [← hm, ← hop]
  exact Row.mnemonic_eq_iff q hq r hr

/-! ### The rows are disjoint -/

/-- No opcode has two rows. -/
theorem opcodeTable_ops_ne : opcodeTable.Pairwise fun r q => r.op ≠ q.op := by
  decide

theorem opcodeTable_disjoint : opcodeTable.Pairwise fun r q => ∀ w, ¬ (r.Matches w ∧ q.Matches w) := by
  refine opcodeTable_ops_ne.imp_of_mem fun hr hq hne w hm => hne ?_
  exact ((Row.matches_iff hr w).1 hm.1).1.symm.trans ((Row.matches_iff hq w).1 hm.2).1

/-! ### The words that match no row -/

theorem noRow_iff (w : Word) :
    (∀ r ∈ opcodeTable, ¬ r.Matches w) ↔ (Cmd32.ofWord w).wellFormed = false := by
  rcases decode_cases w with ⟨hwf, i, -, hi⟩ | ⟨hwf, -⟩
  · obtain ⟨r, hr, -, hop⟩ := i.exists_row
    have hm : r.Matches w := (Row.matches_iff hr w).2 ⟨by rw [hop, hi], hwf⟩
    simp only [hwf, Bool.true_eq_false, iff_false]
    exact fun h => h r hr hm
  · simp only [hwf, iff_true]
    intro r hr hm
    exact Bool.false_ne_true (hwf.symm.trans ((Row.matches_iff hr w).1 hm).2)

theorem Used.ofOp_eq_none_iff (op : BitVec 4) : Used.ofOp op = none ↔ op ∈ [0x0#4, 0xD#4, 0xE#4, 0xF#4] := by
  revert op
  decide

theorem Cmd32.wellFormed_eq_false_iff (f : Cmd32) : f.wellFormed = false ↔
    (f.op ∈ [0x0#4, 0xD#4, 0xE#4, 0xF#4] ∨ ∃ u, Used.ofOp f.op = some u ∧ ¬ f.MustBeZero u) := by
  rw [← Used.ofOp_eq_none_iff]
  rcases hop : Used.ofOp f.op with _ | u
  · simp [Cmd32.wellFormed_of_ofOp_none hop]
  · rw [← Bool.not_eq_true, Cmd32.wellFormed_iff hop]
    simp

/-! ### The obligations -/

/-- Settles O3: both sides say that the word is well-formed with the opcode of the row. -/
theorem matchAndMask : Obligations.MatchAndMask := by
  intro w r hr
  rw [Row.matches_iff hr]
  constructor
  · rintro ⟨hop, hwf⟩
    rcases decode_cases w with ⟨-, i, hd, hi⟩ | ⟨hill, -⟩
    · exact ⟨i, hd, (i.mnemonic_eq_iff hr).2 (by rw [hi, hop])⟩
    · cases hwf.symm.trans hill
  · rintro ⟨i, hd, hm⟩
    obtain ⟨hi, hwf⟩ := decode_eq_command hd
    exact ⟨by rw [← hi, (i.mnemonic_eq_iff hr).1 hm], hwf⟩

/-- Settles O4: a command's word is well-formed, any other matches no row and decodes as illegal, and a word has one
opcode. -/
theorem mustBeZeroFields : Obligations.MustBeZeroFields := by
  refine ⟨fun w i hd => ?_, fun w hill => ⟨(noRow_iff w).2 hill, ?_⟩, opcodeTable_disjoint⟩
  · have hwf := (decode_eq_command hd).2
    simpa only [Cmd32.wellFormed, Option.any_eq_true, decide_eq_true_iff] using hwf
  · rcases decode_cases w with ⟨hwf, -⟩ | ⟨-, hd⟩
    · cases hwf.symm.trans hill
    · exact hd

end Sys2Proof
end

section
/-! PROOFS. The address byte and the STAT word as fields laid end to end (30_encoding R98, R104). -/

namespace Sys2Proof.Machine

/-! ### The address byte -/

/-- ADDR7 stands above the direction bit. -/
theorem addrByte_eq_append (a : BitVec 7) (d : Dir) : addrByte a d = a ++ d.toBit := by
  apply BitVec.eq_of_getLsbD_eq
  intro i hi
  rw [addrByte, BitVec.getLsbD_or, BitVec.getLsbD_append]
  cases d <;> interval_cases i <;> simp [Dir.toBit]

theorem toNat_append_bit {n : Nat} (a : BitVec n) (b : BitVec 1) : (a ++ b).toNat = 2 * a.toNat + b.toNat := by
  rw [BitVec.toNat_append, ← Nat.shiftLeft_add_eq_or_of_lt b.isLt, Nat.shiftLeft_eq]
  omega

theorem getLsbD_zero_append_toBit {n : Nat} (a : BitVec n) (d : Dir) :
    (a ++ d.toBit).getLsbD 0 = decide (d = .read) := by
  rw [BitVec.getLsbD_append, if_pos Nat.one_pos]
  cases d <;> rfl

/-- Settles O6: ADDR7, the direction and the value are read off ADDR7 laid above the direction bit. -/
theorem addressByte : Obligations.AddressByte := by
  refine ⟨fun a d => ?_, by decide, by decide⟩
  rw [addrByte_eq_append]
  exact ⟨BitVec.extractLsb'_append_eq_left, getLsbD_zero_append_toBit a d, toNat_append_bit a d.toBit⟩

/-! ### STAT -/

theorem extractLsb'_stat (s : State) (start n : Nat) : (stat s).extractLsb' start n =
    (s.lastStatus ++ s.idx ++ 0#4 ++ s.phase.code ++ flag s.illegal ++ flag s.stopUnconf ++ s.cause.code ++
      s.outcome.code ++ flag s.done ++ flag s.busy).extractLsb' start n := rfl

/-- The fields of STAT above DONE, from bit 2 up. -/
theorem stat_fields (s : State) :
    (stat s).extractLsb' 2 2 = s.outcome.code ∧ (stat s).extractLsb' 4 3 = s.cause.code ∧
    (stat s).extractLsb' 7 1 = flag s.stopUnconf ∧ (stat s).extractLsb' 8 1 = flag s.illegal ∧
    (stat s).extractLsb' 9 3 = s.phase.code ∧ (stat s).extractLsb' 12 4 = 0#4 ∧
    (stat s).extractLsb' 16 8 = s.idx ∧ (stat s).extractLsb' 24 8 = s.lastStatus := by
  simp only [extractLsb'_stat]
  refine ⟨?_, ?_, ?_, ?_, ?_, ?_, ?_, ?_⟩
  all_goals repeat rw [BitVec.extractLsb'_append_eq_of_le (by decide)]
  case refine_8 => exact BitVec.extractLsb'_eq_self
  all_goals exact BitVec.extractLsb'_append_eq_right

theorem getLsbD_of_extractLsb'_eq_flag {w : Word} {i : Nat} {b : Bool} (h : w.extractLsb' i 1 = flag b) :
    w.getLsbD i = b := by
  have hbit := congrArg (fun v => v.getLsbD 0) h
  simpa [flag] using hbit

/-- Settles O7: the fields of STAT, with the codes of the three enumerations. -/
theorem statLayout : Obligations.StatLayout := by
  intro s
  obtain ⟨houtcome, hcause, hstop, hillegal, hphase, hzero, hidx, hlast⟩ := stat_fields s
  exact ⟨statBusy_stat s, statDone_stat s, houtcome.trans (by cases s.outcome <;> rfl),
    hcause.trans (by cases s.cause <;> rfl), getLsbD_of_extractLsb'_eq_flag hstop,
    getLsbD_of_extractLsb'_eq_flag hillegal, hphase.trans (by cases s.phase <;> rfl), hzero, hidx, hlast⟩

end Sys2Proof.Machine
end

section
/-! PROOFS. The step at a word on the command input (30_encoding R92, R96): a legal word runs its command, an illegal one
completes at once, and no word is looked at while BUSY = 1. -/

namespace Sys2Proof.Machine

/-! ### The three steps -/

theorem step_of_command {s : State} {i : Instr} (hb : s.busy = false) (hv : s.cmdValid = true)
    (hd : decode s.cmd = .command i) : step s = exec i (takeCommand s) := by
  simp [step, hb, hv, hd]

theorem step_of_illegal {s : State} {why : IllegalWord} (hb : s.busy = false) (hv : s.cmdValid = true)
    (hd : decode s.cmd = .illegal why) : step s = .next (runIllegal s.cmd (takeCommand s)) := by
  simp [step, hb, hv, hd]

theorem busyStep_of_no_reset {s : State} (h : ∀ rest, s.host ≠ .reset :: rest) : busyStep s = s := by
  unfold busyStep
  split
  case h_1 rest hr => exact absurd hr (h rest)
  case h_2 => rfl

theorem step_of_busy_no_reset {s : State} (hb : s.busy = true) (h : ∀ rest, s.host ≠ .reset :: rest) :
    step s = .next s := by
  rw [step, if_pos hb, busyStep_of_no_reset h]

theorem decodeTableWord_eq_some {nbits w : Nat} {i : Instr} (h : decodeTableWord nbits w = some i) :
    decode (tableWord nbits w) = .command i := by
  unfold decodeTableWord at h
  split at h
  case h_1 j hj => rw [hj, Option.some.inj h]
  case h_2 => cases h

/-! ### What a command keeps from its acceptance -/

/-- The latches, BUSY and DONE of the acceptance stand until completion, and so in every STAT word of the record. -/
theorem exec_keeps_accept (i : Instr) (s : State) : ∃ c u, exec i s = .next (complete c u) ∧
    Keeps (accept i.fields s) u ∧
    ∃ events, u.trace = (accept i.fields s).trace ++ events ∧ Logged events.length (accept i.fields s) u := by
  by_cases hi : i = .init
  · subst hi
    exact ⟨_, _, rfl, bodyInit_keeps _, _, bodyInit_trace _, bodyInit_logged _⟩
  · obtain ⟨c, u, e, hu⟩ := exec_runs i s hi
    exact ⟨c, u, e, hu.keeps, hu.log⟩

/-! ### The obligations -/

/-- Settles O8: a presented word that decodes to a command is run, and `withFetchWord` presents the word. -/
theorem stepRunsDecodedCommand : Obligations.StepRunsDecodedCommand :=
  ⟨fun _ _ hb hv hd _ => step_of_command hb hv hd,
    fun _ _ _ _ h => step_of_command rfl rfl (decodeTableWord_eq_some h)⟩

/-- Settles O9: the latches are those of the acceptance, of the fields of the word; the record shows its BUSY and DONE. -/
theorem acceptedCommandRunsBusy : Obligations.AcceptedCommandRunsBusy := by
  intro s i hb hv hd
  obtain ⟨c, u, e, hkeeps, events, htrace, ⟨new, hlog, hlen, hshow⟩⟩ := exec_keeps_accept i (takeCommand s)
  rw [(decode_eq_command hd).1] at hkeeps
  exact ⟨complete c u, (step_of_command hb hv hd).trans e, hkeeps.cmdValid, hkeeps.op, hkeeps.dir, hkeeps.addr7,
    hkeeps.byte, hkeeps.len, events, new, htrace, hlog, hlen, hshow⟩

/-- Settles O10: the words that match no row are those that are not well-formed, and `runIllegal` writes the latches,
IDX and the flags alone. -/
theorem illegalWordCompletesAtOnce : Obligations.IllegalWordCompletesAtOnce := by
  refine ⟨fun w => (noRow_iff w).trans (Cmd32.wellFormed_eq_false_iff _), fun s hb hv hrows => ?_⟩
  rcases decode_cases s.cmd with ⟨hwf, -⟩ | ⟨-, why, hd⟩
  · cases hwf.symm.trans ((noRow_iff s.cmd).1 hrows)
  · exact ⟨_, step_of_illegal hb hv hd, by simp [runIllegal]⟩

/-- Settles O11: a step while BUSY = 1 looks at the host's next move alone. -/
theorem wordWaitsWhileBusy : Obligations.WordWaitsWhileBusy :=
  fun _ _ hb hr => step_of_busy_no_reset hb hr

end Sys2Proof.Machine
end

section
/-! PROOFS. The twelve status codes by the part they play in the steps (42_primitives R151): the success of a step, the
expected failure of a step, fatal in every step. -/

namespace Sys2Proof

/-- The codes that some step takes for success. -/
def Cfg.successCodes (c : Cfg) : List Byte :=
  [c.stStart, c.stRstart, c.stTxAddrAck, c.stTxDataAck, c.stRxAddrAck, c.stRxDataAck, c.stRxDataNack]

/-- The codes that some step takes for its expected failure. -/
def Cfg.failureCodes (c : Cfg) : List Byte := [c.stTxAddrNack, c.stTxDataNack, c.stRxAddrNack]

/-- The codes that are fatal in every step. -/
def Cfg.fatalCodes (c : Cfg) : List Byte := [c.stArbLost, c.stBusFault]

theorem Cfg.codes_perm (c : Cfg) : c.codes.Perm (c.successCodes ++ (c.failureCodes ++ c.fatalCodes)) := by
  rw [List.perm_iff_count]
  intro x
  simp only [codes, successCodes, failureCodes, fatalCodes, List.cons_append, List.nil_append, List.count_cons]
  omega

section
variable {c : Cfg} {x : Byte}

theorem Cfg.mem_codes : x ∈ c.codes ↔ x ∈ c.successCodes ∨ x ∈ c.failureCodes ∨ x ∈ c.fatalCodes := by
  rw [c.codes_perm.mem_iff, List.mem_append, List.mem_append]

theorem Cfg.stArbLost_mem_fatalCodes : c.stArbLost ∈ c.fatalCodes := List.mem_cons_self

theorem Cfg.stBusFault_mem_fatalCodes : c.stBusFault ∈ c.fatalCodes := List.mem_cons_of_mem _ List.mem_cons_self

/-! With a well-formed configuration (00_scope R7) no code plays two parts. -/

variable (hc : c.WellFormed)
include hc

theorem Cfg.WellFormed.parts_nodup : (c.successCodes ++ (c.failureCodes ++ c.fatalCodes)).Nodup :=
  c.codes_perm.nodup hc.1

theorem Cfg.WellFormed.success_disjoint : c.successCodes.Disjoint (c.failureCodes ++ c.fatalCodes) :=
  List.disjoint_of_nodup_append hc.parts_nodup

theorem Cfg.WellFormed.failure_disjoint_fatal : c.failureCodes.Disjoint c.fatalCodes :=
  List.disjoint_of_nodup_append hc.parts_nodup.of_append_right

theorem Cfg.WellFormed.stStart_ne_stRstart : c.stStart ≠ c.stRstart :=
  have h : c.successCodes.Nodup := hc.parts_nodup.of_append_left
  List.ne_of_not_mem_cons (List.nodup_cons.1 h).1

theorem Cfg.WellFormed.stTxAddrNack_ne_stTxDataNack : c.stTxAddrNack ≠ c.stTxDataNack :=
  have h : c.failureCodes.Nodup := hc.parts_nodup.of_append_right.of_append_left
  List.ne_of_not_mem_cons (List.nodup_cons.1 h).1

theorem Cfg.WellFormed.stArbLost_ne_stBusFault : c.stArbLost ≠ c.stBusFault :=
  have h : c.fatalCodes.Nodup := hc.parts_nodup.of_append_right.of_append_right
  List.ne_of_not_mem_cons (List.nodup_cons.1 h).1

end

end Sys2Proof
end

section
/-! PROOFS. The Status Decoder (40_status_decoder): which codes give each cause, and that in a step with a well-formed
configuration at most one of the decoder's tests holds. -/

namespace Sys2Proof.Machine

/-! ### Masking (R121) -/

/-- Masking keeps every code of a well-formed configuration: its low three bits are zero. -/
theorem statusCode_of_mem_codes {c : Cfg} {x : Byte} (hc : c.WellFormed) (h : x ∈ c.codes) : statusCode x = x :=
  calc x &&& 0xF8#8
    _ = (x &&& 0x07#8) ||| (x &&& 0xF8#8) := by rw [hc.2.1 x h, BitVec.zero_or]
    _ = x &&& (0x07#8 ||| 0xF8#8) := BitVec.and_or_distrib_left.symm
    _ = x := BitVec.and_allOnes

theorem classify_congr {cfg : Cfg} {a b : Byte} {s : List Byte} {f : Option Byte} (h : statusCode a = statusCode b) :
    classify cfg a s f = classify cfg b s f := by
  rw [classify, classify, h]

/-! ### The tests of the decoder (R122) -/

/-- The code decides for the cause: it passes the cause's test and fails those that come before it. No code decides for
Timeout (R125). -/
def DecidesFor (cfg : Cfg) (s : List Byte) (f : Option Byte) (code : Byte) : Cause → Prop
  | .none => code ∈ s
  | .nack => code ∉ s ∧ f = some code
  | .arbLost => code ∉ s ∧ f ≠ some code ∧ code = cfg.stArbLost
  | .busFault => code ∉ s ∧ f ≠ some code ∧ code ≠ cfg.stArbLost ∧ code = cfg.stBusFault
  | .unrecognized => code ∉ s ∧ f ≠ some code ∧ code ≠ cfg.stArbLost ∧ code ≠ cfg.stBusFault
  | .timeout => False

theorem classify_eq_iff {cfg : Cfg} {raw : Byte} {s : List Byte} {f : Option Byte} {c : Cause} :
    classify cfg raw s f = c ↔ DecidesFor cfg s f (statusCode raw) c := by
  simp only [classify]
  split_ifs
  all_goals cases c <;> simp_all [DecidesFor]

/-! ### The codes of a step (42_primitives R151) -/

theorem success_subset_successCodes (c : Cfg) (p : Primitive) : p.success c ⊆ c.successCodes := by
  cases p with
  | addr a d => cases d <;> simp [Primitive.success, Cfg.successCodes]
  | _ => simp [Primitive.success, Cfg.successCodes]

theorem mem_failureCodes_of_failure {c : Cfg} {p : Primitive} {x : Byte} (h : p.failure c = some x) :
    x ∈ c.failureCodes := by
  cases p with
  | addr a d => cases d <;> cases h <;> simp [Cfg.failureCodes]
  | txdata b => cases h; simp [Cfg.failureCodes]
  | _ => cases h

/-- R123: a code that is neither a success nor the failure of this step, nor fatal, is unrecognized. -/
theorem classify_eq_unrecognized_iff {c : Cfg} {p : Primitive} {raw : Byte} :
    classify c raw (p.success c) (p.failure c) = .unrecognized ↔
      statusCode raw ∉ p.success c ∧ p.failure c ≠ some (statusCode raw) ∧ statusCode raw ∉ c.fatalCodes := by
  simp [classify_eq_iff, DecidesFor, Cfg.fatalCodes]

theorem classify_of_not_mem_codes {c : Cfg} {p : Primitive} {raw : Byte} (h : statusCode raw ∉ c.codes) :
    classify c raw (p.success c) (p.failure c) = .unrecognized := by
  rw [Cfg.mem_codes, not_or, not_or] at h
  obtain ⟨hs, hf, hfatal⟩ := h
  exact classify_eq_unrecognized_iff.2
    ⟨mt (success_subset_successCodes c p ·) hs, mt mem_failureCodes_of_failure hf, hfatal⟩

/-! ### A step with a well-formed configuration -/

section
variable {c : Cfg} (hc : c.WellFormed) {x : Byte} {p q : Primitive}
include hc

theorem not_mem_success_of_failure (h : q.failure c = some x) : x ∉ p.success c := fun hs =>
  hc.success_disjoint (success_subset_successCodes c p hs) (List.mem_append_left _ (mem_failureCodes_of_failure h))

theorem not_mem_success_of_fatal (h : x ∈ c.fatalCodes) : x ∉ p.success c := fun hs =>
  hc.success_disjoint (success_subset_successCodes c p hs) (List.mem_append_right _ h)

theorem failure_ne_of_fatal (h : x ∈ c.fatalCodes) : p.failure c ≠ some x := fun hf =>
  hc.failure_disjoint_fatal (mem_failureCodes_of_failure hf) h

theorem statusCode_of_success (h : x ∈ q.success c) : statusCode x = x :=
  statusCode_of_mem_codes hc (Cfg.mem_codes.2 (.inl (success_subset_successCodes c q h)))

theorem statusCode_of_failure (h : q.failure c = some x) : statusCode x = x :=
  statusCode_of_mem_codes hc (Cfg.mem_codes.2 (.inr (.inl (mem_failureCodes_of_failure h))))

theorem classify_of_success_elsewhere {raw : Byte} (hx : statusCode raw = x) (h : x ∈ q.success c)
    (hp : x ∉ p.success c) : classify c raw (p.success c) (p.failure c) = .unrecognized := by
  rw [classify_eq_unrecognized_iff, hx]
  exact ⟨hp, fun hf => not_mem_success_of_failure hc hf h, fun hfatal => not_mem_success_of_fatal hc hfatal h⟩

theorem classify_of_failure_elsewhere {raw : Byte} (hx : statusCode raw = x) (h : q.failure c = some x)
    (hp : p.failure c ≠ some x) : classify c raw (p.success c) (p.failure c) = .unrecognized := by
  rw [classify_eq_unrecognized_iff, hx]
  exact ⟨not_mem_success_of_failure hc h, hp, fun hfatal => failure_ne_of_fatal hc hfatal h⟩

end

/-! ### The obligations -/

/-- Settles O20: the decoder sees the masked value alone, and the mask drops the low three bits. -/
theorem classifyComparesTopFiveBits : Obligations.ClassifyComparesTopFiveBits :=
  ⟨fun _ _ _ _ _ h => classify_congr h, by decide⟩

/-- Settles O21: a code that plays its part in another step alone is neither a success nor the failure of this one, and
it is not fatal. -/
theorem neverSucceedOnUnmappedStatus : Obligations.NeverSucceedOnUnmappedStatus := by
  refine ⟨fun _ _ _ _ => classify_eq_iff, fun cfg hc p q => ⟨fun x h hp => ?_, fun x h hp => ?_, fun raw h => ?_⟩,
    fun cfg hc => ?_, fun cfg b hc => ?_, rfl⟩
  · exact classify_of_success_elsewhere hc (statusCode_of_success hc h) h hp
  · exact classify_of_failure_elsewhere hc (statusCode_of_failure hc h) h hp
  · exact classify_of_not_mem_codes h
  · have h : cfg.stRstart ∈ Primitive.rstart.success cfg := List.mem_cons_of_mem _ List.mem_cons_self
    have hp : cfg.stRstart ∉ Primitive.start.success cfg :=
      fun hp => hc.stStart_ne_stRstart (List.mem_singleton.1 hp).symm
    exact classify_of_success_elsewhere hc (statusCode_of_success hc h) h hp
  · have h : (Primitive.addr 0 .write).failure cfg = some cfg.stTxAddrNack := rfl
    have hp : (Primitive.txdata b).failure cfg ≠ some cfg.stTxAddrNack :=
      fun hp => hc.stTxAddrNack_ne_stTxDataNack (Option.some.inj hp).symm
    exact classify_of_failure_elsewhere hc (statusCode_of_failure hc h) h hp

/-- Settles O22: a code that passes one of the last three tests passes none of the others. -/
theorem classifyEachCauseHasItsCode : Obligations.ClassifyEachCauseHasItsCode := by
  intro cfg p raw hc
  refine ⟨?_, ?_, ?_, fun h => classify_eq_iff.1 h⟩ <;> rw [classify_eq_iff]
  · exact and_iff_right_of_imp (not_mem_success_of_failure hc)
  · refine ⟨fun ⟨_, _, h⟩ => h, fun h => ?_⟩
    have hfatal : statusCode raw ∈ cfg.fatalCodes := h ▸ Cfg.stArbLost_mem_fatalCodes
    exact ⟨not_mem_success_of_fatal hc hfatal, failure_ne_of_fatal hc hfatal, h⟩
  · refine ⟨fun ⟨_, _, _, h⟩ => h, fun h => ?_⟩
    have hfatal : statusCode raw ∈ cfg.fatalCodes := h ▸ Cfg.stBusFault_mem_fatalCodes
    exact ⟨not_mem_success_of_fatal hc hfatal, failure_ne_of_fatal hc hfatal,
      h ▸ hc.stArbLost_ne_stBusFault.symm, h⟩

end Sys2Proof.Machine
end

section
/-! PROOFS. The Timeout Guard (41_timeout_guard R141 to R143): both waits in closed form, and what they do at budget 0
and budget 1. -/

namespace Sys2Proof.Machine

/-! ### A wait in time, and a wait that is not -/

section
variable {b k : Nat} {r : Response}

theorem timely_of_lt (hk : r.notReady = some k) (hlt : k < b) : timely b r = true := by
  simp [timely, hk, hlt]

theorem timely_of_not_lt (hk : r.notReady = some k) (hlt : ¬ k < b) : timely b r = false := by
  simp [timely, hk, hlt]

theorem timely_of_never (h : r.notReady = none) : timely b r = false := by
  simp [timely, h]

theorem timely_zero (r : Response) : timely 0 r = false := by
  rcases h : r.notReady with _ | k
  · exact timely_of_never h
  · exact timely_of_not_lt h k.not_lt_zero

theorem timely_one_of_ne (h : r.notReady ≠ some 0) : timely 1 r = false := by
  rcases hk : r.notReady with _ | k
  · exact timely_of_never hk
  · exact timely_of_not_lt hk fun hlt => h (by rw [hk, Nat.lt_one_iff.1 hlt])

theorem waitEvents_of_lt (nr rd : Event) (hk : r.notReady = some k) (hlt : k < b) :
    waitEvents b r nr rd = List.replicate k nr ++ [rd] := by
  simp [waitEvents, hk, hlt]

theorem waitEvents_of_not_timely (nr rd : Event) (h : timely b r = false) :
    waitEvents b r nr rd = List.replicate b nr := by
  rcases hk : r.notReady with _ | k
  · simp [waitEvents, hk]
  · have hlt : ¬ k < b := fun hlt => by simp [timely_of_lt hk hlt] at h
    simp [waitEvents, hk, hlt]

theorem missedPolls_of_lt (hk : r.notReady = some k) (hlt : k < b) : missedPolls b r = k := by
  simp [missedPolls, hk, hlt]

theorem missedPolls_of_not_timely (h : timely b r = false) : missedPolls b r = b := by
  rcases hk : r.notReady with _ | k
  · simp [missedPolls, hk]
  · have hlt : ¬ k < b := fun hlt => by simp [timely_of_lt hk hlt] at h
    simp [missedPolls, hk, hlt]

theorem missedPolls_le (b : Nat) (r : Response) : missedPolls b r ≤ b := by
  unfold missedPolls
  split
  · split <;> omega
  · exact Nat.le_refl b

end

/-! ### The guard (R141) -/

/-- A wait writes TMO, the bus controller and the record, and nothing else. -/
theorem Waited.frame {b : Nat} {nr rd : Event} {s t : State} (h : Waited b nr rd s t) :
    ({ t with tmo := s.tmo, bus := s.bus, trace := s.trace, statLog := s.statLog } : State) = s := by
  have k := h.keeps
  simp only [k.cfg, k.cmd, k.cmdValid, k.op, k.dir, k.addr7, k.byte, k.len, k.busy, k.done, k.outcome, k.cause,
    k.illegal, k.host, k.resets, h.buf, h.phase, h.seq, h.idx, h.stopUnconf, h.lastStatus, h.rxdata, h.script]

theorem toNat_sub_ofNat {w : BitVec 16} {n : Nat} (h : n ≤ w.toNat) :
    (w - BitVec.ofNat 16 n).toNat = w.toNat - n := by
  have hw := w.isLt
  rw [BitVec.toNat_sub_of_le] <;> simp [BitVec.le_def] <;> omega

/-- Everything WAIT does from `s`, answering `w`: its verdict, TMO, its polls, and that it writes nothing else. -/
structure Guarded (notReady ready : Event) (s : State) (w : Bool × State) : Prop where
  verdict : w.1 = timely s.cfg.timeoutBudget.toNat s.bus.pending
  tmo : w.2.tmo.toNat = s.cfg.timeoutBudget.toNat - missedPolls s.cfg.timeoutBudget.toNat s.bus.pending
  trace : w.2.trace = s.trace ++ waitEvents s.cfg.timeoutBudget.toNat s.bus.pending notReady ready
  frame : ({ w.2 with tmo := s.tmo, bus := s.bus, trace := s.trace, statLog := s.statLog } : State) = s

/-- WAIT loads TMO with the budget and loops. -/
theorem guarded_of_waited {nr rd : Event} {s : State} {w : Bool × State}
    (hv : w.1 = timely s.cfg.timeoutBudget.toNat s.bus.pending)
    (hw : Waited s.cfg.timeoutBudget.toNat nr rd (setTmo s.cfg.timeoutBudget s) w.2) : Guarded nr rd s w where
  verdict := hv
  tmo := by
    rw [hw.tmo]
    exact toNat_sub_ofNat (missedPolls_le _ _)
  trace := hw.trace
  frame := congrArg (setTmo s.tmo) hw.frame

theorem waitDone_guarded (s : State) : Guarded (.pollDone false) (.pollDone true) s (waitDone s) :=
  have ⟨hv, hw, _⟩ := waitLoop_bcDone s.cfg.timeoutBudget.toNat (setTmo s.cfg.timeoutBudget s)
  guarded_of_waited hv hw

theorem waitStop_guarded (s : State) : Guarded (.pollStop true) (.pollStop false) s (waitStop s) :=
  have ⟨hv, hw⟩ := waitLoop_bcStopReleased s.cfg.timeoutBudget.toNat (setTmo s.cfg.timeoutBudget s)
  guarded_of_waited hv hw

section
variable {nr rd : Event} {s : State} {w : Bool × State} (h : Guarded nr rd s w)
include h

theorem Guarded.of_lt {k : Nat} (hk : s.bus.pending.notReady = some k) (hlt : k < s.cfg.timeoutBudget.toNat) :
    w.1 = true ∧ w.2.trace = s.trace ++ List.replicate k nr ++ [rd] ∧
      w.2.tmo.toNat = s.cfg.timeoutBudget.toNat - k := by
  rw [h.verdict, h.trace, h.tmo, timely_of_lt hk hlt, waitEvents_of_lt nr rd hk hlt, missedPolls_of_lt hk hlt,
    List.append_assoc]
  exact ⟨rfl, rfl, rfl⟩

theorem Guarded.of_not_timely (ht : timely s.cfg.timeoutBudget.toNat s.bus.pending = false) :
    w.1 = false ∧ w.2.trace = s.trace ++ List.replicate s.cfg.timeoutBudget.toNat nr ∧ w.2.tmo = 0 := by
  have htmo : w.2.tmo.toNat = 0 := by rw [h.tmo, missedPolls_of_not_timely ht, Nat.sub_self]
  rw [h.verdict, h.trace, ht, waitEvents_of_not_timely nr rd ht]
  exact ⟨rfl, rfl, BitVec.eq_of_toNat_eq htmo⟩

end

theorem waits_of_lt {s : State} {k : Nat} (hk : s.bus.pending.notReady = some k)
    (hlt : k < s.cfg.timeoutBudget.toNat) :
    (waitDone s).1 = true ∧ (waitStop s).1 = true ∧
      (waitDone s).2.trace = s.trace ++ List.replicate k (Event.pollDone false) ++ [Event.pollDone true] ∧
      (waitStop s).2.trace = s.trace ++ List.replicate k (Event.pollStop true) ++ [Event.pollStop false] ∧
      (waitDone s).2.tmo.toNat = s.cfg.timeoutBudget.toNat - k ∧
      (waitStop s).2.tmo.toNat = s.cfg.timeoutBudget.toNat - k := by
  obtain ⟨hd, hdtrace, hdtmo⟩ := (waitDone_guarded s).of_lt hk hlt
  obtain ⟨hs, hstrace, hstmo⟩ := (waitStop_guarded s).of_lt hk hlt
  exact ⟨hd, hs, hdtrace, hstrace, hdtmo, hstmo⟩

theorem waits_of_not_timely {s : State} (ht : timely s.cfg.timeoutBudget.toNat s.bus.pending = false) :
    (waitDone s).1 = false ∧ (waitStop s).1 = false ∧
      (waitDone s).2.trace = s.trace ++ List.replicate s.cfg.timeoutBudget.toNat (Event.pollDone false) ∧
      (waitStop s).2.trace = s.trace ++ List.replicate s.cfg.timeoutBudget.toNat (Event.pollStop true) ∧
      (waitDone s).2.tmo = 0 ∧ (waitStop s).2.tmo = 0 := by
  obtain ⟨hd, hdtrace, hdtmo⟩ := (waitDone_guarded s).of_not_timely ht
  obtain ⟨hs, hstrace, hstmo⟩ := (waitStop_guarded s).of_not_timely ht
  exact ⟨hd, hs, hdtrace, hstrace, hdtmo, hstmo⟩

/-- Settles O23: a wait in time ends with its ready poll; one that is not makes as many polls as the budget. -/
theorem waitResult : Obligations.WaitResult := by
  intro s
  refine ⟨?_, (waitDone_guarded s).frame, (waitStop_guarded s).frame⟩
  split
  case h_1 k hk =>
    split
    case isTrue hlt => exact waits_of_lt hk hlt
    case isFalse hlt => exact waits_of_not_timely (timely_of_not_lt hk hlt)
  case h_2 hk => exact waits_of_not_timely (timely_of_never hk)

/-! ### Budget 0 and budget 1 (R143) -/

theorem primCause_of_not_timely {cfg : Cfg} {p : Primitive} {r : Response} (hp : p ≠ .stop)
    (h : timely cfg.timeoutBudget.toNat r = false) : primCause cfg p r = .timeout := by
  simp [primCause, hp, h]

/-- A primitive that times out polls and reads nothing. -/
theorem primAnswerEvents_of_not_timely {cfg : Cfg} {p : Primitive} {r : Response} (hp : p ≠ .stop)
    (h : timely cfg.timeoutBudget.toNat r = false) :
    primAnswerEvents cfg p r = List.replicate cfg.timeoutBudget.toNat (.pollDone false) := by
  simp [primAnswerEvents, hp, h, primCause_of_not_timely hp h, waitEvents_of_not_timely _ _ h]

theorem PrimResult.of_zero {p : Primitive} {s t : State} {c : Cause} (R : PrimResult p s t c) (hp : p ≠ .stop)
    (hb : s.cfg.timeoutBudget.toNat = 0) :
    c = .timeout ∧ t.trace = s.trace ++ p.loads ++ [Event.trig p.action] := by
  have ht : timely s.cfg.timeoutBudget.toNat (answer s p) = false := by rw [hb, timely_zero]
  refine ⟨R.cause.trans (primCause_of_not_timely hp ht), ?_⟩
  rw [R.trace, primEvents, primAnswerEvents_of_not_timely hp ht, hb, List.replicate_zero, List.append_nil,
    List.append_assoc]

theorem exec_command_of_zero {p : Primitive} {s : State} (hp : p ≠ .stop) (hb : s.cfg.timeoutBudget.toNat = 0) :
    ∃ t, exec p.command s = .next t ∧ t.cause = .timeout ∧
      t.trace = s.trace ++ p.loads ++ [Event.trig p.action] :=
  ⟨_, exec_command p s, (runPrimitive_result p (accept p.command.fields s)).of_zero hp hb⟩

theorem exec_stop_of_zero {s : State} (hb : s.cfg.timeoutBudget.toNat = 0) :
    ∃ t, exec .stop s = .next t ∧ t.stopUnconf = true := by
  refine ⟨_, exec_command .stop s, ?_⟩
  rw [complete_stopUnconf, (runPrimitive_result .stop _).stopUnconf, if_pos rfl, accept_cfg, hb, timely_zero,
    Bool.not_false]

/-- Settles O24: with budget 0 no wait is in time; with budget 1 only one whose first poll is ready. -/
theorem guardBoundaries : Obligations.GuardBoundaries := by
  refine ⟨fun s h0 => ?_, fun s h1 => ?_⟩
  · have hb : s.cfg.timeoutBudget.toNat = 0 := congrArg BitVec.toNat h0
    obtain ⟨hd, hs, hdtrace, hstrace, -⟩ := waits_of_not_timely (s := s) (by rw [hb, timely_zero])
    rw [hb, List.replicate_zero, List.append_nil] at hdtrace hstrace
    exact ⟨hd, hdtrace, hs, hstrace, fun p hp => exec_command_of_zero hp hb, exec_stop_of_zero hb⟩
  · have hb : s.cfg.timeoutBudget.toNat = 1 := congrArg BitVec.toNat h1
    refine ⟨fun hk => ?_, fun hk => ?_⟩
    · obtain ⟨hd, hs, hdtrace, hstrace, -⟩ := waits_of_lt hk (hb ▸ Nat.one_pos)
      rw [List.replicate_zero, List.append_nil] at hdtrace hstrace
      exact ⟨hd, hdtrace, hs, hstrace⟩
    · obtain ⟨hd, hs, hdtrace, hstrace, -⟩ := waits_of_not_timely (s := s) (by rw [hb, timely_one_of_ne hk])
      rw [hb] at hdtrace hstrace
      exact ⟨hd, hdtrace, hs, hstrace⟩

end Sys2Proof.Machine
end

section
/-! PROOFS. The bounds of a command (41_timeout_guard R146): a primitive has one trigger and polls within one budget, an
operation is at most 6 + LEN primitives. -/

namespace Sys2Proof.Machine

/-! ### Counting triggers and polls -/

@[simp] theorem triggers_append (x y : List Event) : triggers (x ++ y) = triggers x ++ triggers y :=
  List.filterMap_append

@[simp] theorem pollCount_append (x y : List Event) : pollCount (x ++ y) = pollCount x + pollCount y :=
  List.countP_append

/-- The events are within the bounds of `n` primitives with budget `b`: a trigger and `b` polls for each. -/
structure Within (b n : Nat) (es : List Event) : Prop where
  triggers : (triggers es).length ≤ n
  polls : pollCount es ≤ n * b

section
variable {b : Nat}

theorem Within.append {m n : Nat} {x y : List Event} (hx : Within b m x) (hy : Within b n y) :
    Within b (m + n) (x ++ y) where
  triggers := by
    rw [triggers_append, List.length_append]
    exact Nat.add_le_add hx.triggers hy.triggers
  polls := by
    rw [pollCount_append, Nat.add_mul]
    exact Nat.add_le_add hx.polls hy.polls

theorem Within.mono {m n : Nat} {x : List Event} (hx : Within b m x) (h : m ≤ n) : Within b n x where
  triggers := hx.triggers.trans h
  polls := hx.polls.trans (Nat.mul_le_mul_right b h)

theorem Within.nil : Within b 0 [] := ⟨Nat.le_refl _, Nat.zero_le _⟩

/-! ### One primitive -/

theorem length_waitEvents_le (b : Nat) (r : Response) (nr rd : Event) : (waitEvents b r nr rd).length ≤ b := by
  unfold waitEvents
  split
  · split
    · simpa
    · simp
  · simp

theorem pollCount_waitEvents_le (b : Nat) (r : Response) (nr rd : Event) : pollCount (waitEvents b r nr rd) ≤ b :=
  List.countP_le_length.trans (length_waitEvents_le b r nr rd)

end

theorem triggers_primAnswerEvents (cfg : Cfg) (p : Primitive) (r : Response) :
    triggers (primAnswerEvents cfg p r) = [] := by
  have wait : ∀ {nr rd}, triggered nr = none → triggered rd = none →
      triggers (waitEvents cfg.timeoutBudget.toNat r nr rd) = [] := filterMap_waitEvents _ r
  have read : ∀ {c : Prop} [Decidable c] {x}, triggered x = none → triggers (if c then [x] else []) = [] :=
    fun hx => by split <;> simp [triggers, hx]
  unfold primAnswerEvents
  split
  · exact wait rfl rfl
  · rw [triggers_append, triggers_append, wait rfl rfl, read rfl, read rfl, List.append_nil, List.append_nil]

/-- The reads after a wait are no polls. -/
theorem pollCount_primAnswerEvents_le (cfg : Cfg) (p : Primitive) (r : Response) :
    pollCount (primAnswerEvents cfg p r) ≤ cfg.timeoutBudget.toNat := by
  have read : ∀ {c : Prop} [Decidable c] {x}, isPoll x = false → pollCount (if c then [x] else []) = 0 :=
    fun hx => by split <;> simp [pollCount, hx]
  unfold primAnswerEvents
  split
  · exact pollCount_waitEvents_le _ _ _ _
  · rw [pollCount_append, pollCount_append, read rfl, read rfl]
    exact pollCount_waitEvents_le _ _ _ _

theorem within_primitive (cfg : Cfg) (p : Primitive) (r : Response) :
    Within cfg.timeoutBudget.toNat 1 (p.loads ++ [Event.trig p.action] ++ primAnswerEvents cfg p r) where
  triggers := by
    have hload : (triggers (p.loads ++ [Event.trig p.action])).length = 1 := by cases p <;> rfl
    rw [triggers_append, triggers_primAnswerEvents, List.append_nil, hload]
  polls := by
    have hload : pollCount (p.loads ++ [Event.trig p.action]) = 0 := by cases p <;> rfl
    rw [pollCount_append, hload, Nat.zero_add, Nat.one_mul]
    exact pollCount_primAnswerEvents_le cfg p r

theorem within_primEvents (s : State) (p : Primitive) : Within s.cfg.timeoutBudget.toNat 1 (primEvents s p) :=
  within_primitive s.cfg p (answer s p)

/-! ### A play -/

theorem within_before (b : Nat) (m : Move) : Within b 0 m.before := by
  cases m <;> exact ⟨Nat.le_refl _, Nat.zero_le _⟩

theorem within_after (b : Nat) (r : Response) (m : Move) : Within b 0 (m.after r) := by
  cases m <;> exact ⟨Nat.le_refl _, Nat.zero_le _⟩

theorem playMove_trace_within (cfg : Cfg) (p : Play) (m : Move) :
    ∃ new, (playMove cfg p m).trace = p.trace ++ new ∧ Within cfg.timeoutBudget.toNat 1 new := by
  by_cases hc : p.cause = .none
  · have hafter : ∀ (c : Cause) r, Within cfg.timeoutBudget.toNat 0 (if c = .none then m.after r else []) := by
      intro c r
      split
      · exact within_after _ r m
      · exact Within.nil
    have hnew := ((within_before _ m).append (within_primitive cfg m.primitive (moveAnswer p m))).append
      (hafter (primCause cfg m.primitive (moveAnswer p m)) (moveAnswer p m))
    refine ⟨_, ?_, hnew⟩
    rw [playMove, if_neg (not_not.2 hc)]
    simp [moveAnswer]
  · rw [playMove_failed hc]
    exact ⟨[], (List.append_nil _).symm, Within.nil.mono (Nat.zero_le 1)⟩

theorem foldl_playMove_trace_within (cfg : Cfg) (ms : List Move) (p : Play) :
    ∃ new, (ms.foldl (playMove cfg) p).trace = p.trace ++ new ∧ Within cfg.timeoutBudget.toNat ms.length new := by
  induction ms generalizing p with
  | nil => exact ⟨[], (List.append_nil _).symm, Within.nil⟩
  | cons m ms ih =>
    obtain ⟨x, hx, wx⟩ := playMove_trace_within cfg p m
    obtain ⟨y, hy, wy⟩ := ih (playMove cfg p m)
    refine ⟨x ++ y, ?_, (wx.append wy).mono (Nat.le_of_eq (Nat.add_comm 1 _))⟩
    rw [List.foldl_cons, hy, hx, List.append_assoc]

/-! ### The commands -/

@[simp] theorem length_sendMoves (s : State) (n : Byte) : (sendMoves s n).length = n.toNat := by
  simp [sendMoves]

@[simp] theorem length_receiveMoves (n : Byte) : (receiveMoves n).length = n.toNat := by
  simp [receiveMoves]

/-- The longest body is RREG's: five steps before its data (R186). -/
theorem length_bodyMoves_le (s : State) (i : Instr) : (bodyMoves s i).length ≤ 5 + i.fields.len.toNat := by
  cases i <;> simp [bodyMoves, Instr.fields] <;> omega

theorem exec_command_within (p : Primitive) (s : State) :
    ∃ t new, exec p.command s = .next t ∧ t.trace = s.trace ++ new ∧ Within s.cfg.timeoutBudget.toNat 1 new :=
  ⟨_, _, exec_command p s, (runPrimitive_result p _).trace, within_primEvents (accept p.command.fields s) p⟩

theorem exec_operation_within {i : Instr} (s : State) (hi : isOperation i = true) :
    ∃ t new, exec i s = .next t ∧ t.trace = s.trace ++ new ∧
      Within s.cfg.timeoutBudget.toNat (6 + i.fields.len.toNat) new := by
  obtain ⟨r, e, h⟩ := operation_result i s hi
  obtain ⟨new, hnew, wnew⟩ := foldl_playMove_trace_within s.cfg (bodyMoves s i) _
  have R := pStop_result (setSeq .stop r.2)
  have wstop := within_primEvents (setSeq .stop r.2) .stop
  rw [setSeq_cfg, h.keeps.cfg, accept_cfg] at wstop
  refine ⟨_, _, e, ?_, (wnew.append wstop).mono ?_⟩
  · rw [stopAndComplete, complete_trace, R.trace, setSeq_trace, h.trace, play, hnew, List.append_assoc]
  · have hbody := length_bodyMoves_le s i
    omega

theorem exec_init_polls (s : State) :
    ∃ t new, exec .init s = .next t ∧ t.trace = s.trace ++ new ∧ pollCount new = 0 :=
  ⟨_, _, rfl, bodyInit_trace _, rfl⟩

/-- Settles O25: a primitive is within one budget; an operation is its list of steps and a stop, at most 6 + LEN
primitives; INIT writes twice and does not poll. -/
theorem pollsAreBounded : Obligations.PollsAreBounded := by
  refine ⟨fun p s => ?_, fun i s hi => ?_, exec_init_polls⟩
  · obtain ⟨t, new, e, htrace, w⟩ := exec_command_within p s
    exact ⟨t, new, e, htrace, by simpa using w.polls⟩
  · obtain ⟨t, new, e, htrace, w⟩ := exec_operation_within s hi
    have hlen : i.fields.len.toNat ≤ 255 := Nat.le_of_lt_succ i.fields.len.isLt
    have hbudget : s.cfg.timeoutBudget.toNat ≤ 65535 := Nat.le_of_lt_succ s.cfg.timeoutBudget.isLt
    exact ⟨t, new, e, htrace, w.triggers, w.polls,
      w.polls.trans (Nat.mul_le_mul (Nat.add_le_add_left hlen 6) hbudget)⟩

end Sys2Proof.Machine
end

section
/-! PROOFS. The word of a command as its fields, each shifted to its place (30_encoding R91). -/

namespace Sys2Proof

/-- The fields stand side by side, so the word is the disjunction of the shifted fields. -/
theorem Cmd32.toWord_eq_or (f : Cmd32) : f.toWord =
    (f.op.setWidth 32 <<< 28) ||| (f.z1.setWidth 32 <<< 25) ||| (f.dir.setWidth 32 <<< 24) |||
      (f.z2.setWidth 32 <<< 23) ||| (f.addr7.setWidth 32 <<< 16) ||| (f.byte.setWidth 32 <<< 8) |||
      f.len.setWidth 32 := by
  apply BitVec.eq_of_getLsbD_eq
  intro i hi
  rw [Cmd32.getLsbD_toWord]
  simp only [BitVec.getLsbD_append, BitVec.getLsbD_or, BitVec.getLsbD_shiftLeft, BitVec.getLsbD_setWidth]
  interval_cases i <;> simp

theorem decode_encode (i : Instr) : decode (encode i) = .command i := by
  rw [decode, ofWord_encode, decodeFields_fields]

theorem encode_addr (d : Dir) (a : BitVec 7) :
    encode (.addr d a) = 0x40000000#32 ||| (d.toBit.setWidth 32 <<< 24) ||| (a.setWidth 32 <<< 16) := by
  simp [encode, Cmd32.toWord_eq_or, Instr.fields]

theorem encode_txdata (b : Byte) : encode (.txdata b) = 0x50000000#32 ||| (b.setWidth 32 <<< 8) := by
  simp [encode, Cmd32.toWord_eq_or, Instr.fields]

theorem decode_addr_word (d : Dir) (a : BitVec 7) :
    decode (0x40000000#32 ||| (d.toBit.setWidth 32 <<< 24) ||| (a.setWidth 32 <<< 16)) = .command (.addr d a) := by
  rw [← encode_addr, decode_encode]

theorem decode_txdata_word (b : Byte) :
    decode (0x50000000#32 ||| (b.setWidth 32 <<< 8)) = .command (.txdata b) := by
  rw [← encode_txdata, decode_encode]

end Sys2Proof
end

section
/-! PROOFS. What every command keeps (70_reset R250), and what a primitive command does, in terms of the state its word
was presented in (42_primitives R150 to R160). -/

namespace Sys2Proof.Machine

/-! ### Every command -/

theorem exec_frame {i : Instr} {s t : State} (h : exec i s = .next t) : CommandFrame s t := by
  obtain ⟨c, u, e, hkeeps, events, htrace, ⟨words, hlog, -, -⟩⟩ := exec_keeps_accept i s
  cases h.symm.trans e
  exact ⟨hkeeps.cfg, hkeeps.cmd, hkeeps.cmdValid, hkeeps.host, hkeeps.resets, ⟨events, htrace.symm⟩,
    ⟨words, hlog.symm⟩⟩

/-- The operand latches hold the fields of the word until the next acceptance (30_encoding R92). -/
theorem exec_latches {i : Instr} {s t : State} (h : exec i s = .next t) :
    t.op = i.fields.op ∧ t.dir = Dir.ofBit i.fields.dir ∧ t.addr7 = i.fields.addr7 ∧ t.byte = i.fields.byte ∧
      t.len = i.fields.len := by
  obtain ⟨c, u, e, hkeeps, -⟩ := exec_keeps_accept i s
  cases h.symm.trans e
  exact ⟨hkeeps.op, hkeeps.dir, hkeeps.addr7, hkeeps.byte, hkeeps.len⟩

/-! ### The cause of a primitive (R150, R151) -/

section
variable {p : Primitive} {s : State}

theorem primCause_of_step (hp : p ≠ .stop) : primCause s.cfg p (answer s p) =
    if inTime s p then classify s.cfg (answer s p).status (p.success s.cfg) (p.failure s.cfg) else .timeout :=
  if_neg hp

theorem primCause_of_inTime (hp : p ≠ .stop) (h : inTime s p = true) :
    primCause s.cfg p (answer s p) = classify s.cfg (answer s p).status (p.success s.cfg) (p.failure s.cfg) := by
  rw [primCause_of_step hp, if_pos h]

/-- Without an expected-failure code there is no Nack. -/
theorem primCause_ne_nack (hf : p.failure s.cfg = none) : primCause s.cfg p (answer s p) ≠ .nack := by
  by_cases hp : p = .stop
  · simp [primCause, hp]
  · rw [primCause_of_step hp, hf]
    split
    · simp [classify_eq_iff, DecidesFor]
    · simp

/-- Timeout is the guard's verdict alone (40_status_decoder R125). -/
theorem inTime_of_primCause_timeout (h : primCause s.cfg p (answer s p) = .timeout) : inTime s p = false := by
  by_contra ht
  by_cases hp : p = .stop
  · simp [primCause, hp] at h
  · rw [primCause_of_inTime hp (Bool.not_eq_false _ ▸ ht), classify_eq_iff] at h
    exact h

/-! ### The events of a primitive -/

/-- A wait finds the flag not ready as often as it lowers TMO. -/
theorem countP_waitEvents {f : Event → Bool} {nr rd : Event} (b : Nat) (r : Response) (hnr : f nr = true)
    (hrd : f rd = false) : (waitEvents b r nr rd).countP f = missedPolls b r := by
  have hcount : ∀ k, (List.replicate k nr).countP f = k := fun k => by rw [List.countP_replicate, if_pos hnr]
  have hlate : timely b r = false → (waitEvents b r nr rd).countP f = missedPolls b r := fun ht => by
    rw [waitEvents_of_not_timely nr rd ht, missedPolls_of_not_timely ht, hcount]
  rcases hk : r.notReady with _ | k
  · exact hlate (timely_of_never hk)
  · by_cases hlt : k < b
    · rw [waitEvents_of_lt nr rd hk hlt, missedPolls_of_lt hk hlt, List.countP_append, hcount,
        List.countP_singleton, hrd]
      rfl
    · exact hlate (timely_of_not_lt hk hlt)

theorem missed_eq_missedPolls (s : State) (p : Primitive) :
    missed s p = missedPolls s.cfg.timeoutBudget.toNat (answer s p) := by
  unfold missed polls
  split
  · exact countP_waitEvents _ _ rfl rfl
  · exact countP_waitEvents _ _ rfl rfl

theorem primEvents_stop (s : State) : primEvents s .stop = [Event.trig .stop] ++ polls s .stop := rfl

theorem primEvents_of_step (hp : p ≠ .stop) : primEvents s p = p.loads ++ [Event.trig p.action] ++ polls s p ++
    (if inTime s p then [Event.rdStatus (answer s p).status] else []) ++
    (if receives p.action = true ∧ primCause s.cfg p (answer s p) = .none then [Event.rdData (answer s p).data]
      else []) := by
  rw [primEvents, primAnswerEvents, if_neg hp, polls, if_neg hp]
  simp only [List.append_assoc]
  rfl

end

/-! ### A primitive command -/

/-- Everything the command of the primitive `p` does, from the state `s` its word was presented in to `t`. -/
structure CommandResult (p : Primitive) (s t : State) : Prop where
  cause : t.cause = primCause s.cfg p (answer s p)
  phase : t.phase = if t.cause = .none then p.phase else s.phase
  lastStatus : t.lastStatus = if p ≠ .stop ∧ inTime s p = true then (answer s p).status else s.lastStatus
  rxdata : t.rxdata = if receives p.action = true ∧ t.cause = .none then (answer s p).data else s.rxdata
  stopUnconf : t.stopUnconf = if p = .stop then !inTime s p else s.stopUnconf
  trace : t.trace = s.trace ++ primEvents s p
  tmo : t.tmo.toNat + missed s p = s.cfg.timeoutBudget.toNat
  idx : t.idx = 0
  buf : t.buf = s.buf
  script : t.script = s.script.tail

/-- Acceptance changes nothing that the answer to the trigger depends on. -/
theorem command_result {p : Primitive} {s t : State} (h : exec p.command s = .next t) : CommandResult p s t := by
  obtain ⟨c, u, rfl, R⟩ := exec_command_result h
  exact
    { cause := R.cause
      phase := R.phase
      lastStatus := R.lastStatus
      rxdata := R.rxdata
      stopUnconf := R.stopUnconf
      trace := R.trace
      tmo := by
        have hle := missedPolls_le s.cfg.timeoutBudget.toNat (answer s p)
        have htmo : (complete c u).tmo.toNat = _ := (congrArg BitVec.toNat R.tmo).trans (toNat_sub_ofNat hle)
        rw [htmo, missed_eq_missedPolls, accept_cfg]
        exact Nat.sub_add_cancel hle
      idx := R.idx
      buf := R.buf
      script := R.script }

section
variable {p : Primitive} {s t : State} (R : CommandResult p s t)
include R

theorem CommandResult.cause_of_step (hp : p ≠ .stop) : t.cause =
    if inTime s p then classify s.cfg (answer s p).status (p.success s.cfg) (p.failure s.cfg) else .timeout :=
  R.cause.trans (primCause_of_step hp)

theorem CommandResult.cause_of_inTime (hp : p ≠ .stop) (h : inTime s p = true) :
    t.cause = classify s.cfg (answer s p).status (p.success s.cfg) (p.failure s.cfg) :=
  R.cause.trans (primCause_of_inTime hp h)

theorem CommandResult.cause_ne_nack (hf : p.failure s.cfg = none) : t.cause ≠ .nack :=
  R.cause ▸ primCause_ne_nack hf

theorem CommandResult.lastStatus_of_step (hp : p ≠ .stop) :
    t.lastStatus = if inTime s p then (answer s p).status else s.lastStatus := by
  simpa [hp] using R.lastStatus

theorem CommandResult.lastStatus_of_timeout (h : t.cause = .timeout) : t.lastStatus = s.lastStatus := by
  rw [R.lastStatus, inTime_of_primCause_timeout (R.cause.symm.trans h)]
  simp

theorem CommandResult.stopUnconf_of_step (hp : p ≠ .stop) : t.stopUnconf = s.stopUnconf :=
  R.stopUnconf.trans (if_neg hp)

theorem CommandResult.rxdata_of_no_receive (hr : receives p.action = false) : t.rxdata = s.rxdata := by
  simpa [hr] using R.rxdata

theorem CommandResult.rxdata_of_receive (hr : receives p.action = true) :
    t.rxdata = if t.cause = .none then (answer s p).data else s.rxdata := by
  simpa [hr] using R.rxdata

theorem CommandResult.trace_of_no_receive (hp : p ≠ .stop) (hr : receives p.action = false) :
    t.trace = s.trace ++ (p.loads ++ [Event.trig p.action]) ++ polls s p ++
      (if inTime s p then [Event.rdStatus (answer s p).status] else []) := by
  simp [R.trace, primEvents_of_step hp, hr]

theorem CommandResult.trace_of_receive (hp : p ≠ .stop) (hr : receives p.action = true) :
    t.trace = s.trace ++ (p.loads ++ [Event.trig p.action]) ++ polls s p ++
      (if inTime s p then [Event.rdStatus (answer s p).status] else []) ++
      (if t.cause = .none then [Event.rdData (answer s p).data] else []) := by
  simp [R.trace, primEvents_of_step hp, hr, R.cause]

end

end Sys2Proof.Machine
end

section
/-! PROOFS. The four primitives that send (42_primitives R153 to R156): their results. -/

namespace Sys2Proof.Machine

/-- A plain START does not take the code of a repeated start (R153). -/
theorem classify_start_of_stRstart {cfg : Cfg} (hc : cfg.WellFormed) {raw : Byte} (h : statusCode raw = cfg.stRstart) :
    classify cfg raw (Primitive.start.success cfg) (Primitive.start.failure cfg) = .unrecognized := by
  have hin : cfg.stRstart ∈ Primitive.rstart.success cfg := List.mem_cons_of_mem _ List.mem_cons_self
  have hout : cfg.stRstart ∉ Primitive.start.success cfg :=
    fun hp => hc.stStart_ne_stRstart (List.mem_singleton.1 hp).symm
  exact classify_of_success_elsewhere hc h hin hout

/-- Settles O26: the command of the primitive START, whose one success code is ST_START. -/
theorem startResult : Obligations.StartResult := by
  refine ⟨by decide, fun s => ?_⟩
  obtain ⟨t, h⟩ := exec_next .start s
  have R : CommandResult .start s t := command_result h
  have hstop : Primitive.start ≠ .stop := by decide
  exact ⟨t, t.cause, h, R.cause_of_step hstop, R.cause_ne_nack rfl, exec_completed h, R.phase,
    R.lastStatus_of_step hstop, R.trace_of_no_receive hstop rfl, R.tmo, R.idx, R.rxdata_of_no_receive rfl,
    R.stopUnconf_of_step hstop, R.buf,
    fun hc ht hcode => (R.cause_of_inTime hstop ht).trans (classify_start_of_stRstart hc hcode)⟩

/-- Settles O27: the trigger is that of START and so gets its answer; only the classification differs. -/
theorem rstartResult : Obligations.RstartResult := by
  refine ⟨by decide, fun s => ?_⟩
  obtain ⟨t, h⟩ := exec_next .rstart s
  obtain ⟨u, hu⟩ := exec_next .start s
  have R : CommandResult .rstart s t := command_result h
  have S : CommandResult .start s u := command_result hu
  have hstop : Primitive.rstart ≠ .stop := by decide
  have hstop' : Primitive.start ≠ .stop := by decide
  have htrace : t.trace = u.trace :=
    (R.trace_of_no_receive hstop rfl).trans (S.trace_of_no_receive hstop' rfl).symm
  have hlast : t.lastStatus = u.lastStatus := (R.lastStatus_of_step hstop).trans (S.lastStatus_of_step hstop').symm
  exact ⟨t, t.cause, h, R.cause_of_step hstop, R.cause_ne_nack rfl, exec_completed h, R.phase,
    R.lastStatus_of_step hstop, ⟨u, hu, htrace, hlast⟩, R.tmo, R.idx, R.rxdata_of_no_receive rfl,
    R.stopUnconf_of_step hstop, R.buf⟩

/-- Settles O28: the command of the primitive ADDR, whose codes are those of the direction. -/
theorem addrResult : Obligations.AddrResult := by
  intro s a d
  obtain ⟨t, h⟩ := exec_next (.addr d a) s
  have R : CommandResult (.addr a d) s t := command_result h
  have hstop : Primitive.addr a d ≠ .stop := by simp
  refine ⟨t, t.cause, decode_addr_word d a, h, ?_, exec_completed h, R.phase, R.lastStatus_of_step hstop,
    R.trace_of_no_receive hstop rfl, R.tmo, R.idx, R.rxdata_of_no_receive rfl, R.stopUnconf_of_step hstop, R.buf⟩
  cases d with
  | write => exact R.cause_of_step hstop
  | read => exact R.cause_of_step hstop

/-- An answer scripted for a trigger does not look at what was sent before it. -/
theorem answer_addr_of_script {s : State} (h : s.script ≠ []) (a b : BitVec 7) (d : Dir) :
    answer s (.addr a d) = answer s (.addr b d) := by
  rcases hs : s.script with _ | ⟨r, rest⟩
  · exact absurd hs h
  · simp [answer, answerTo, hs]

/-- Settles O29: the answer is the scripted one for either address, and its codes are those of the direction. -/
theorem addressDoesNotChangeClassification : Obligations.AddressDoesNotChangeClassification := by
  intro s a b d hs
  obtain ⟨t, ht⟩ := exec_next (.addr d a) s
  obtain ⟨u, hu⟩ := exec_next (.addr d b) s
  have R : CommandResult (.addr a d) s t := command_result ht
  have S : CommandResult (.addr b d) s u := command_result hu
  have hans := answer_addr_of_script hs a b d
  have hcause : t.cause = u.cause := by
    rw [R.cause, S.cause, hans]
    cases d <;> rfl
  have hlast : t.lastStatus = u.lastStatus := by
    rw [R.lastStatus_of_step (by simp), S.lastStatus_of_step (by simp), inTime, inTime, hans]
  refine ⟨t, u, ht, hu, hcause, ?_, hlast, ?_⟩
  · rw [(exec_completed ht).outcome, (exec_completed hu).outcome, hcause]
  · rw [R.phase, S.phase, hcause]
    rfl

/-- Settles O30: the command of the primitive TXDATA, whose codes are the transmitter data codes. -/
theorem txdataResult : Obligations.TxdataResult := by
  intro s b
  obtain ⟨t, h⟩ := exec_next (.txdata b) s
  have R : CommandResult (.txdata b) s t := command_result h
  have hstop : Primitive.txdata b ≠ .stop := by simp
  exact ⟨t, t.cause, decode_txdata_word b, h, R.cause_of_step hstop, exec_completed h, R.phase,
    R.lastStatus_of_step hstop, R.trace_of_no_receive hstop rfl, R.tmo, R.idx, R.rxdata_of_no_receive rfl,
    R.stopUnconf_of_step hstop, R.buf⟩

end Sys2Proof.Machine
end

section
/-! PROOFS. The two receives (42_primitives R157, R158): their results. -/

namespace Sys2Proof

theorem Cfg.WellFormed.stRxDataAck_ne_stRxDataNack {c : Cfg} (hc : c.WellFormed) : c.stRxDataAck ≠ c.stRxDataNack :=
  have h : [c.stRxDataAck, c.stRxDataNack].Nodup :=
    hc.parts_nodup.of_append_left.sublist (List.drop_sublist 5 c.successCodes)
  List.ne_of_not_mem_cons (List.nodup_cons.1 h).1

end Sys2Proof

namespace Sys2Proof.Machine

/-- RXNACK does not take the code of a receive with ack (R158). -/
theorem classify_rxnack_of_stRxDataAck {cfg : Cfg} (hc : cfg.WellFormed) {raw : Byte}
    (h : statusCode raw = cfg.stRxDataAck) :
    classify cfg raw (Primitive.rxnack.success cfg) (Primitive.rxnack.failure cfg) = .unrecognized := by
  have hin : cfg.stRxDataAck ∈ Primitive.rxack.success cfg := List.mem_cons_self
  have hout : cfg.stRxDataAck ∉ Primitive.rxnack.success cfg :=
    fun hp => hc.stRxDataAck_ne_stRxDataNack (List.mem_singleton.1 hp)
  exact classify_of_success_elsewhere hc h hin hout

/-- Settles O31: the command of the primitive RXACK, which reads the data register only on None. -/
theorem rxackResult : Obligations.RxackResult := by
  refine ⟨by decide, fun s => ?_⟩
  obtain ⟨t, h⟩ := exec_next .rxack s
  have R : CommandResult .rxack s t := command_result h
  have hstop : Primitive.rxack ≠ .stop := by decide
  exact ⟨t, t.cause, h, R.cause_of_step hstop, R.cause_ne_nack rfl, exec_completed h, R.phase,
    R.rxdata_of_receive rfl, R.lastStatus_of_step hstop, R.trace_of_receive hstop rfl, R.tmo, R.idx,
    R.stopUnconf_of_step hstop, R.buf⟩

/-- Settles O32: the command of the primitive RXNACK, whose one success code is ST_RX_DATA_NACK. -/
theorem rxnackResult : Obligations.RxnackResult := by
  refine ⟨by decide, fun s => ?_⟩
  obtain ⟨t, h⟩ := exec_next .rxnack s
  have R : CommandResult .rxnack s t := command_result h
  have hstop : Primitive.rxnack ≠ .stop := by decide
  exact ⟨t, t.cause, h, R.cause_of_step hstop, R.cause_ne_nack rfl, exec_completed h, R.phase,
    R.rxdata_of_receive rfl, R.lastStatus_of_step hstop, R.trace_of_receive hstop rfl, R.tmo, R.idx,
    R.stopUnconf_of_step hstop, R.buf,
    fun hc ht hcode => (R.cause_of_inTime hstop ht).trans (classify_rxnack_of_stRxDataAck hc hcode)⟩

end Sys2Proof.Machine
end

section
/-! PROOFS. STOP (42_primitives R159): its result, and what a host polling STAT reads while the stop is awaited. -/

namespace Sys2Proof.Machine

/-- The log of STOP: the word at the trigger, then one word for each poll, all alike and read at PHASE = StopIssued. -/
theorem pStop_statLog (s : State) : ∃ v n, v.phase = .stopIssued ∧
    (pStop s).2.statLog = s.statLog ++ [stat s] ++ List.replicate n (stat v) := by
  obtain ⟨-, W⟩ := waitLoop_bcStopReleased s.cfg.timeoutBudget.toNat
    (setTmo s.cfg.timeoutBudget (setPhase .stopIssued (bcTrigger .stop s)))
  exact ⟨_, _, rfl, W.statLog⟩

theorem extractLsb'_stat_of_stopIssued {v : State} (h : v.phase = .stopIssued) :
    (stat v).extractLsb' 9 3 = 4#3 := by
  obtain ⟨-, -, -, -, hphase, -⟩ := stat_fields v
  rw [hphase, h]
  rfl

theorem exec_stop_polls_show_stopIssued {s t : State} (h : exec .stop s = .next t) :
    ∀ w ∈ t.statLog.drop (s.statLog.length + 1), w.extractLsb' 9 3 = 4#3 := by
  intro w hw
  cases h
  obtain ⟨v, n, hv, hlog⟩ := pStop_statLog (accept Instr.stop.fields s)
  rw [complete_statLog, hlog, accept_statLog, List.drop_left' (by simp)] at hw
  rw [List.eq_of_mem_replicate hw, extractLsb'_stat_of_stopIssued hv]

/-- Settles O33: the command of the primitive STOP, whose cause is None whatever its wait says. -/
theorem stopResult : Obligations.StopResult := by
  refine ⟨by decide, fun s => ?_⟩
  obtain ⟨t, h⟩ := exec_next .stop s
  have R : CommandResult .stop s t := command_result h
  have hcause : t.cause = .none := R.cause
  have htrace : t.trace = s.trace ++ [Event.trig .stop] ++ polls s .stop := by
    rw [R.trace, primEvents_stop, List.append_assoc]
  exact ⟨t, h, hcause ▸ exec_completed h, exec_phase_idle (.inr rfl) h, R.stopUnconf, htrace, R.tmo,
    exec_stop_polls_show_stopIssued h, R.lastStatus, R.rxdata_of_no_receive rfl, R.buf, R.idx⟩

end Sys2Proof.Machine
end

section
/-! PROOFS. The frames of the primitive commands (42_primitives R153 to R160). -/

namespace Sys2Proof.Machine

theorem exec_command_bus {p : Primitive} {s t : State} (h : exec p.command s = .next t) :
    t.bus.divider = s.bus.divider ∧ t.bus.enabled = s.bus.enabled :=
  exec_divider_enabled (by cases p <;> simp [Primitive.command]) h

theorem exec_command_readBuf {p : Primitive} {s t : State} (h : exec p.command s = .next t) (j : Byte) :
    readBuf t j = readBuf s j :=
  readBuf_congr (command_result h).buf (exec_frame h).resets j

theorem CommandResult.unchanged_of_failed {p : Primitive} {s t : State} (R : CommandResult p s t)
    (h : t.cause ≠ .none) : t.phase = s.phase ∧ t.rxdata = s.rxdata := by
  simp [R.phase, R.rxdata, h]

theorem exists_primitive_of_start_or_transmit {i : Instr}
    (h : i = .start ∨ i = .rstart ∨ (∃ d a, i = .addr d a) ∨ (∃ b, i = .txdata b)) :
    ∃ p : Primitive, i = p.command ∧ p ≠ .stop ∧ receives p.action = false := by
  rcases h with rfl | rfl | ⟨d, a, rfl⟩ | ⟨b, rfl⟩
  · exact ⟨.start, rfl, by simp, rfl⟩
  · exact ⟨.rstart, rfl, by simp, rfl⟩
  · exact ⟨.addr a d, rfl, by simp, rfl⟩
  · exact ⟨.txdata b, rfl, by simp, rfl⟩

/-- Settles O35: one frame for the primitives that are neither STOP nor a receive. -/
theorem startAndTransmitFrame : Obligations.StartAndTransmitFrame := by
  intro i s hi
  obtain ⟨p, rfl, hstop, hrx⟩ := exists_primitive_of_start_or_transmit hi
  obtain ⟨t, h⟩ := exec_next p.command s
  have R := command_result h
  obtain ⟨hdiv, hen⟩ := exec_command_bus h
  exact ⟨t, h, exec_frame h, R.script, R.rxdata_of_no_receive hrx, R.stopUnconf_of_step hstop, hdiv, hen,
    fun hc => (R.unchanged_of_failed hc).1, R.lastStatus_of_timeout, exec_command_readBuf h, exec_latches h⟩

/-- Settles O36: the frame of a primitive that is not STOP; RXDATA and PHASE are written only on None. -/
theorem receiveFrame : Obligations.ReceiveFrame := by
  intro i s hi
  obtain ⟨t, h⟩ := exec_next i s
  have hlatches : t.op = i.fields.op ∧ t.dir = .write ∧ t.addr7 = 0 ∧ t.byte = 0 ∧ t.len = 0 := by
    rcases hi with rfl | rfl <;> exact exec_latches h
  obtain ⟨p, rfl, hstop⟩ : ∃ p : Primitive, i = p.command ∧ p ≠ .stop := by
    rcases hi with rfl | rfl
    · exact ⟨.rxack, rfl, by decide⟩
    · exact ⟨.rxnack, rfl, by decide⟩
  have R := command_result h
  obtain ⟨hdiv, hen⟩ := exec_command_bus h
  exact ⟨t, h, exec_frame h, R.script, R.stopUnconf_of_step hstop, hdiv, hen, R.unchanged_of_failed,
    R.lastStatus_of_timeout, exec_command_readBuf h, hlatches⟩

/-- Settles O37: STOP reads neither status nor data. -/
theorem stopFrame : Obligations.StopFrame := by
  intro s
  obtain ⟨t, h⟩ := exec_next .stop s
  have R : CommandResult .stop s t := command_result h
  obtain ⟨hdiv, hen⟩ := exec_command_bus (p := .stop) h
  exact ⟨t, h, exec_frame h, R.script, R.lastStatus, R.rxdata_of_no_receive rfl, hdiv, hen,
    exec_command_readBuf (p := .stop) h, exec_latches h⟩

end Sys2Proof.Machine
end

section
/-! PROOFS. PHASE is written and never read (42_primitives R152): whatever a primitive, an operation or INIT does is
determined by the registers of `Agrees`, and PHASE is not among them. -/

namespace Sys2Proof.Machine

/-- The two states agree in everything that the events and results of a command depend on. PHASE is left out, and so are
the operand latches, which acceptance writes, TMO, which every wait loads, and the bus controller, which every trigger
sets up anew. -/
structure Agrees (s u : State) : Prop where
  cfg : u.cfg = s.cfg
  idx : u.idx = s.idx
  stopUnconf : u.stopUnconf = s.stopUnconf
  lastStatus : u.lastStatus = s.lastStatus
  rxdata : u.rxdata = s.rxdata
  script : u.script = s.script
  trace : u.trace = s.trace
  buf : ∀ j, readBuf u j = readBuf s j

section
variable {s u : State} (A : Agrees s u)
include A

theorem Agrees.accept (f : Cmd32) : Agrees (accept f s) (accept f u) :=
  ⟨A.cfg, rfl, A.stopUnconf, A.lastStatus, A.rxdata, A.script, A.trace, A.buf⟩

theorem Agrees.setSeq (q : Seq) : Agrees (setSeq q s) (setSeq q u) :=
  ⟨A.cfg, A.idx, A.stopUnconf, A.lastStatus, A.rxdata, A.script, A.trace, A.buf⟩

theorem Agrees.complete (c : Cause) : Agrees (complete c s) (complete c u) :=
  ⟨A.cfg, A.idx, A.stopUnconf, A.lastStatus, A.rxdata, A.script, A.trace, A.buf⟩

theorem Agrees.answer (p : Primitive) : answer u p = answer s p := by
  rw [Machine.answer, Machine.answer, answerTo, answerTo, A.script, A.trace]

/-- The answer to its trigger, and the registers above, determine what a primitive does. -/
theorem Agrees.primitive {p : Primitive} {t v : State} {c d : Cause} (R : PrimResult p s t c)
    (S : PrimResult p u v d) : d = c ∧ Agrees t v := by
  have hcause : d = c := by rw [S.cause, R.cause, A.cfg, A.answer]
  refine ⟨hcause, ?_, ?_, ?_, ?_, ?_, ?_, ?_, fun j => ?_⟩
  · rw [S.keeps.cfg, R.keeps.cfg, A.cfg]
  · rw [S.idx, R.idx, A.idx]
  · rw [S.stopUnconf, R.stopUnconf, A.cfg, A.answer, A.stopUnconf]
  · rw [S.lastStatus, R.lastStatus, A.cfg, A.answer, A.lastStatus]
  · rw [S.rxdata, R.rxdata, hcause, A.answer, A.rxdata]
  · rw [S.script, R.script, A.script]
  · rw [S.trace, R.trace, primEvents, primEvents, A.cfg, A.answer, A.trace]
  · rw [readBuf_congr S.buf S.keeps.resets, readBuf_congr R.buf R.keeps.resets, A.buf]

theorem Agrees.setBus (b b' : BusController) : Agrees (setBus b s) (setBus b' u) :=
  ⟨A.cfg, A.idx, A.stopUnconf, A.lastStatus, A.rxdata, A.script, A.trace, A.buf⟩

theorem Agrees.emit (e : Event) : Agrees (emit e s) (emit e u) :=
  ⟨A.cfg, A.idx, A.stopUnconf, A.lastStatus, A.rxdata, A.script, congrArg (· ++ [e]) A.trace, A.buf⟩

theorem Agrees.bodyInit : Agrees (bodyInit s).2 (bodyInit u).2 := by
  rw [Machine.bodyInit, Machine.bodyInit, A.cfg]
  exact (((A.setBus _ _).emit _).setBus _ _).emit _

/-- The steps of an operation, and how far they get, are the same from either state. -/
theorem Agrees.play (i : Instr) : play u (bodyMoves u i) = play s (bodyMoves s i) := by
  have hsend : ∀ n, sendMoves u n = sendMoves s n := fun n => by simp only [sendMoves, A.buf]
  have hmoves : bodyMoves u i = bodyMoves s i := by cases i <;> simp only [bodyMoves, hsend]
  rw [hmoves, Machine.play, Machine.play, A.cfg, A.lastStatus, A.trace, A.script]

/-- Two runs that are where one play is agree. -/
theorem Agrees.of_tracks {p : Play} {r r' : Cause × State} (h : Tracks s p r) (h' : Tracks u p r') :
    r'.1 = r.1 ∧ Agrees r.2 r'.2 := by
  refine ⟨h'.cause.trans h.cause.symm, ?_, ?_, ?_, ?_, ?_, ?_, ?_, fun j => ?_⟩
  · rw [h'.keeps.cfg, h.keeps.cfg, A.cfg]
  · exact BitVec.eq_of_toNat_eq (h'.idx.trans h.idx.symm)
  · rw [h'.stopUnconf, h.stopUnconf, A.stopUnconf]
  · rw [h'.lastStatus, h.lastStatus]
  · rw [h'.rxdata, h.rxdata, A.rxdata]
  · rw [h'.script, h.script]
  · rw [h'.trace, h.trace]
  · rw [h'.buf, h.buf, A.buf]

end

theorem Agrees.stopAndComplete {r r' : Cause × State} (hc : r'.1 = r.1) (A : Agrees r.2 r'.2) :
    Agrees (stopAndComplete r) (stopAndComplete r') := by
  rw [Machine.stopAndComplete, Machine.stopAndComplete, hc]
  exact ((A.setSeq .stop).primitive (pStop_result _) (pStop_result _)).2.complete r.1

/-- One command, run from two states that agree, has one cause and ends in states that agree. -/
theorem Agrees.exec {s u : State} (A : Agrees s u) {i : Instr} {t v : State} (ht : exec i s = .next t)
    (hv : exec i u = .next v) : v.cause = t.cause ∧ Agrees t v := by
  rcases instr_kind i with rfl | ⟨p, rfl⟩ | hop
  · cases ht
    cases hv
    exact ⟨rfl, (A.accept _).bodyInit.complete .none⟩
  · obtain ⟨c, t, rfl, R⟩ := exec_command_result ht
    obtain ⟨d, v, rfl, S⟩ := exec_command_result hv
    obtain ⟨rfl, B⟩ := (A.accept _).primitive R S
    exact ⟨rfl, B.complete d⟩
  · obtain ⟨r, hr, T⟩ := operation_result i s hop
    obtain ⟨r', hr', T'⟩ := operation_result i u hop
    cases ht.symm.trans hr
    cases hv.symm.trans hr'
    obtain ⟨hc, B⟩ := (A.accept i.fields).of_tracks T (A.play i ▸ T')
    exact ⟨hc, B.stopAndComplete hc⟩

/-- Settles O34: states that differ in PHASE alone agree, so every command does the same from both. -/
theorem phaseIsNotRead : Obligations.PhaseIsNotRead := by
  refine ⟨fun p s => ?_, fun i s q => ?_⟩
  · obtain ⟨t, h⟩ := exec_next p.command s
    exact ⟨t, h, (command_result h).phase⟩
  · obtain ⟨t, ht⟩ := exec_next i s
    obtain ⟨u, hu⟩ := exec_next i { s with phase := q }
    have A : Agrees s { s with phase := q } := ⟨rfl, rfl, rfl, rfl, rfl, rfl, rfl, fun _ => rfl⟩
    obtain ⟨hcause, B⟩ := A.exec ht hu
    have houtcome : u.outcome = t.outcome := by
      rw [(exec_completed hu).outcome, (exec_completed ht).outcome, hcause]
    exact ⟨t, u, ht, hu, B.trace, hcause, houtcome, B.stopUnconf, B.lastStatus, B.rxdata, B.idx, B.buf⟩

end Sys2Proof.Machine
end

section
/-! PROOFS. INIT (43_orchestrator R187), the divider it writes (R181), and the command words of the four operations
(R183 to R186). -/

namespace Sys2Proof

/-! ### The command words -/

theorem encode_bwrite (a : BitVec 7) (n : Byte) :
    encode (.bwrite a n) = 0x90000000#32 ||| (a.setWidth 32 <<< 16) ||| n.setWidth 32 := by
  simp [encode, Cmd32.toWord_eq_or, Instr.fields]

theorem encode_bread (a : BitVec 7) (n : Byte) :
    encode (.bread a n) = 0xA0000000#32 ||| (a.setWidth 32 <<< 16) ||| n.setWidth 32 := by
  simp [encode, Cmd32.toWord_eq_or, Instr.fields]

theorem encode_wreg (a : BitVec 7) (b n : Byte) : encode (.wreg a b n) =
    0xB0000000#32 ||| (a.setWidth 32 <<< 16) ||| (b.setWidth 32 <<< 8) ||| n.setWidth 32 := by
  simp [encode, Cmd32.toWord_eq_or, Instr.fields]

theorem encode_rreg (a : BitVec 7) (b n : Byte) : encode (.rreg a b n) =
    0xC0000000#32 ||| (a.setWidth 32 <<< 16) ||| (b.setWidth 32 <<< 8) ||| n.setWidth 32 := by
  simp [encode, Cmd32.toWord_eq_or, Instr.fields]

/-- Settles O41: each word is the encoding of its command. -/
theorem operationWords : Obligations.OperationWords := by
  intro a b n
  rw [← encode_bwrite, ← encode_bread, ← encode_wreg, ← encode_rreg]
  exact ⟨decode_encode _, decode_encode _, decode_encode _, decode_encode _⟩

end Sys2Proof

namespace Sys2Proof.Machine

/-! ### The divider (R181) -/

theorem divider_of_bitRate_zero (fRef divMax : Nat) : divider fRef 0 divMax = divMax := if_pos rfl

section
variable {fRef bitRate : Nat} (divMax : Nat) (h0 : bitRate ≠ 0)
include h0

/-- Below 16 the difference is negative, and the divider is clamped from below. -/
theorem divider_of_quotient_lt (h : fRef / bitRate < 16) : divider fRef bitRate divMax = 0 := by
  have hneg : ((fRef / bitRate : Nat) : Int) - 16 < 0 := by omega
  simp only [divider, h0, if_false, if_pos hneg]

theorem divider_of_le_quotient (h : 16 ≤ fRef / bitRate) :
    divider fRef bitRate divMax = min ((fRef / bitRate - 16) / 2) divMax := by
  have hnonneg : ¬ ((fRef / bitRate : Nat) : Int) - 16 < 0 := by omega
  have hnat : (((fRef / bitRate : Nat) : Int) - 16).toNat = fRef / bitRate - 16 := by omega
  simp only [divider, h0, if_false, if_neg hnonneg, hnat]
  split <;> omega

end

theorem divider_le (fRef bitRate divMax : Nat) : divider fRef bitRate divMax ≤ divMax := by
  by_cases h0 : bitRate = 0
  · rw [h0, divider_of_bitRate_zero]
  · rcases Nat.lt_or_ge (fRef / bitRate) 16 with h | h
    · rw [divider_of_quotient_lt divMax h0 h]
      exact Nat.zero_le _
    · rw [divider_of_le_quotient divMax h0 h]
      exact Nat.min_le_right _ _

/-- Settles O40: the three cases of the rate and the quotient, and the six examples. -/
theorem dividerFormula : Obligations.DividerFormula := by
  refine ⟨fun fRef bitRate divMax => ⟨divider_le fRef bitRate divMax, ?_, divider_of_quotient_lt divMax,
    divider_of_le_quotient divMax⟩, by decide, by decide, by decide, by decide, by decide, by decide⟩
  rintro rfl
  exact divider_of_bitRate_zero fRef divMax

/-! ### INIT (R187) -/

theorem exec_init (s : State) :
    exec .init s = .next (complete .none (bodyInit (accept Instr.init.fields s)).2) := rfl

/-- Settles O38: the two writes in their order, and completion with None. -/
theorem initResult : Obligations.InitResult := by
  refine ⟨by decide, fun s => ⟨_, exec_init s, exec_completed (exec_init s), bodyInit_trace _, ?_⟩⟩
  rw [complete_bus, bodyInit_bus]
  exact ⟨rfl, rfl, rfl, rfl, bodyInit_lastStatus _, bodyInit_rxdata _⟩

/-- Settles O39: INIT neither triggers nor waits, so it uses no answer and leaves TMO. -/
theorem initFrame : Obligations.InitFrame := fun s =>
  have h := exec_init s
  ⟨_, h, exec_frame h, rfl, rfl, bodyInit_lastStatus _, bodyInit_rxdata _, rfl, rfl, bodyInit_idx _, rfl,
    readBuf_congr (bodyInit_buf _) (exec_frame h).resets, exec_latches h⟩

end Sys2Proof.Machine
end

section
/-! PROOFS. Plays (43_orchestrator R182 to R186): what one step does to a play that has not failed, the induction over
the steps of a play, and what holds of every play. -/

namespace Sys2Proof.Machine

/-! ### One step -/

/-- Everything the step `m` does to the play `p` when no step has failed yet. -/
structure Played (cfg : Cfg) (p : Play) (m : Move) (q : Play) : Prop where
  cause : q.cause = primCause cfg m.primitive (moveAnswer p m)
  executed : q.executed = p.executed + 1
  counted : q.counted = if q.cause = .none ∧ m.counts = true then p.counted + 1 else p.counted
  received : q.received = if q.cause = .none ∧ receives m.primitive.action = true then
    p.received ++ [(moveAnswer p m).data] else p.received
  lastStatus : q.lastStatus = if m.primitive ≠ .stop ∧ timely cfg.timeoutBudget.toNat (moveAnswer p m) = true then
    (moveAnswer p m).status else p.lastStatus
  trace : q.trace = p.trace ++ m.before ++ m.primitive.loads ++ [.trig m.primitive.action] ++
    primAnswerEvents cfg m.primitive (moveAnswer p m) ++ (if q.cause = .none then m.after (moveAnswer p m) else [])
  script : q.script = p.script.tail

theorem playMove_played {cfg : Cfg} {p : Play} (hc : p.cause = .none) (m : Move) :
    Played cfg p m (playMove cfg p m) := by
  rw [playMove, if_neg (not_not.2 hc)]
  constructor <;> rfl

/-! ### The induction -/

@[simp] theorem play_nil (s : State) : play s [] = ⟨.none, 0, 0, [], s.lastStatus, s.trace, s.script⟩ := rfl

theorem play_append_singleton (s : State) (ms : List Move) (m : Move) :
    play s (ms ++ [m]) = playMove s.cfg (play s ms) m := by
  simp [play]

/-- What holds of the play of no steps, and is kept by one more step, played or skipped, holds of every play. -/
theorem play_induct {s : State} {P : List Move → Play → Prop} (nil : P [] (play s []))
    (failed : ∀ ms m, (play s ms).cause ≠ .none → P ms (play s ms) → P (ms ++ [m]) (play s ms))
    (played : ∀ ms m q, (play s ms).cause = .none → Played s.cfg (play s ms) m q → P ms (play s ms) → P (ms ++ [m]) q)
    (ms : List Move) : P ms (play s ms) := by
  induction ms using List.reverseRecOn with
  | nil => exact nil
  | append_singleton ms m ih =>
    rw [play_append_singleton]
    by_cases hc : (play s ms).cause = .none
    · exact played ms m _ hc (playMove_played hc m) ih
    · rw [playMove_failed hc]
      exact failed ms m hc ih

/-! ### How far a play gets -/

/-- A play that has not failed has executed all its steps. -/
theorem play_executed (s : State) (ms : List Move) :
    (play s ms).executed ≤ ms.length ∧ ((play s ms).cause = .none → (play s ms).executed = ms.length) := by
  refine play_induct (P := fun ms q => q.executed ≤ ms.length ∧ (q.cause = .none → q.executed = ms.length))
    (by simp) (fun ms m hc ih => ?_) (fun ms m q hc hq ih => ?_) ms
  · rw [List.length_append]
    exact ⟨ih.1.trans (Nat.le_add_right _ _), fun h => absurd h hc⟩
  · have hex : q.executed = (ms ++ [m]).length := by
      rw [hq.executed, ih.2 hc, List.length_append, List.length_singleton]
    exact ⟨Nat.le_of_eq hex, fun _ => hex⟩

theorem play_executed_le (s : State) (ms : List Move) : (play s ms).executed ≤ ms.length := (play_executed s ms).1

theorem play_executed_of_none {s : State} {ms : List Move} (h : (play s ms).cause = .none) :
    (play s ms).executed = ms.length := (play_executed s ms).2 h

/-- The steps after the first that fails are skipped. -/
theorem play_eq_of_take_failed {s : State} {ms : List Move} {j : Nat} (h : (play s (ms.take j)).cause ≠ .none) :
    play s ms = play s (ms.take j) := by
  conv_lhs => rw [← List.take_append_drop j ms, play, List.foldl_append]
  exact foldl_failed h _

/-- 43_orchestrator R188: the failing step is executed. -/
theorem play_executed_of_first_failure {s : State} {ms : List Move} {j : Nat} (hj : j < ms.length)
    (hnone : (play s (ms.take j)).cause = .none) (hfail : (play s (ms.take (j + 1))).cause ≠ .none) :
    (play s ms).executed = j + 1 := by
  rw [play_eq_of_take_failed hfail, List.take_succ_eq_append_getElem hj, play_append_singleton,
    (playMove_played hnone _).executed, play_executed_of_none hnone, List.length_take, Nat.min_eq_left hj.le]

/-- Each executed step uses one answer. -/
theorem play_script (s : State) (ms : List Move) : (play s ms).script = s.script.drop (play s ms).executed := by
  refine play_induct (P := fun _ q => q.script = s.script.drop q.executed) rfl (fun _ _ _ ih => ih)
    (fun ms m q _ hq ih => ?_) ms
  rw [hq.script, hq.executed, ih, List.tail_drop]

/-! ### Data bytes -/

theorem play_counted_of_none {s : State} {ms : List Move} (h : (play s ms).cause = .none) :
    (play s ms).counted = ms.countP Move.counts := by
  revert h
  refine play_induct (P := fun ms q => q.cause = .none → q.counted = ms.countP Move.counts) (fun _ => rfl)
    (fun ms m hc _ h => absurd h hc) (fun ms m q hc hq ih h => ?_) ms
  rw [hq.counted, ih hc, List.countP_append, List.countP_singleton]
  by_cases hm : m.counts = true
  · rw [if_pos ⟨h, hm⟩, if_pos hm]
  · rw [if_neg (fun hh => hm hh.2), if_neg hm, Nat.add_zero]

/-- Where the steps that count are the receives, the count is of the bytes received. -/
theorem play_length_received (s : State) (ms : List Move)
    (h : ∀ m ∈ ms, receives m.primitive.action = m.counts) : (play s ms).received.length = (play s ms).counted := by
  revert h
  refine play_induct (P := fun ms q => (∀ m ∈ ms, receives m.primitive.action = m.counts) →
    q.received.length = q.counted) (fun _ => rfl) (fun ms m _ ih h => ih fun x hx => h x (List.mem_append_left _ hx))
    (fun ms m q _ hq ih h => ?_) ms
  have hms := ih fun x hx => h x (List.mem_append_left _ hx)
  rw [hq.received, hq.counted, h m (by simp)]
  split
  · rw [List.length_append, hms, List.length_singleton]
  · exact hms

theorem play_received_of_no_receives (s : State) (ms : List Move)
    (h : ∀ m ∈ ms, receives m.primitive.action = false) : (play s ms).received = [] := by
  revert h
  refine play_induct (P := fun ms q => (∀ m ∈ ms, receives m.primitive.action = false) → q.received = [])
    (fun _ => rfl) (fun ms m _ ih h => ih fun x hx => h x (List.mem_append_left _ hx)) (fun ms m q _ hq ih h => ?_) ms
  rw [hq.received, h m (by simp), if_neg (by simp)]
  exact ih fun x hx => h x (List.mem_append_left _ hx)

/-! ### The stop -/

theorem moveAnswer_stop (p : Play) :
    moveAnswer p (.prim .stop) = p.script.headD (Config.responder (p.trace ++ [Event.trig .stop])) := by
  simp [moveAnswer, Move.before, Move.primitive, Primitive.loads, Primitive.action]

/-- The stop is played whatever the body's cause, which it keeps. -/
theorem playStop_trace (cfg : Cfg) (p : Play) : (playStop cfg p).trace =
    p.trace ++ ([.trig .stop] ++ primAnswerEvents cfg .stop (moveAnswer p (.prim .stop))) := by
  have hq := playMove_played (cfg := cfg) (p := { p with cause := .none }) rfl (.prim .stop)
  rw [playStop, hq.trace]
  simp [Move.before, Move.after, Move.primitive, Primitive.loads, Primitive.action, moveAnswer]

theorem playStop_script (cfg : Cfg) (p : Play) : (playStop cfg p).script = p.script.tail :=
  (playMove_played (cfg := cfg) (p := { p with cause := .none }) rfl (.prim .stop)).script

end Sys2Proof.Machine
end

section
/-! PROOFS. The operations (43_orchestrator R182 to R189): what each does, in terms of the play of its steps, and their
frames. -/

namespace Sys2Proof.Machine

/-! ### The result of an operation -/

/-- The trigger of the stop that ends an operation gets the answer it gets in the play. -/
theorem answer_stop_of_tracks {a : State} {p : Play} {r : Cause × State} (T : Tracks a p r) :
    answer (setSeq .stop r.2) .stop = moveAnswer p (.prim .stop) := by
  rw [moveAnswer_stop, answer, answerTo, setSeq_script, setSeq_trace, T.script, T.trace, Primitive.loads,
    List.append_nil]
  cases p.script <;> rfl

/-- Everything the operation `i` does from `s` to `t`, where `p` is the play of its steps. -/
structure OperationResult (i : Instr) (s : State) (p : Play) (t : State) : Prop where
  cause : t.cause = p.cause
  trace : t.trace = (playStop s.cfg p).trace
  script : t.script = (playStop s.cfg p).script
  lastStatus : t.lastStatus = p.lastStatus
  idx : t.idx.toNat = p.counted
  stopUnconf : t.stopUnconf = !timely s.cfg.timeoutBudget.toNat (moveAnswer p (.prim .stop))
  rxdata : t.rxdata = (p.received.getLast?).getD s.rxdata
  buf : ∀ j : Byte, readBuf t j = (p.received[j.toNat]?).getD (readBuf s j)

/-- After the body, which plays its steps, the stop adds its own events, uses one answer and gives its verdict. -/
theorem exec_operation_result {i : Instr} {s t : State} (hi : isOperation i = true) (h : exec i s = .next t) :
    OperationResult i s (play s (bodyMoves s i)) t := by
  obtain ⟨r, e, T⟩ := operation_result i s hi
  cases h.symm.trans e
  have R := pStop_result (setSeq .stop r.2)
  have hans := answer_stop_of_tracks T
  have hcfg : (setSeq .stop r.2).cfg = s.cfg := T.keeps.cfg
  exact
    { cause := T.cause
      trace := by
        rw [stopAndComplete, complete_trace, R.trace, primEvents, hans, hcfg, setSeq_trace, T.trace, playStop_trace]
        rfl
      script := by rw [stopAndComplete, complete_script, R.script, setSeq_script, T.script, playStop_script]
      lastStatus := R.lastStatus.trans T.lastStatus
      idx := (congrArg BitVec.toNat R.idx).trans T.idx
      stopUnconf := by rw [stopAndComplete, complete_stopUnconf, R.stopUnconf, if_pos rfl, hans, hcfg]
      rxdata := R.rxdata.trans T.rxdata
      buf := fun j => (readBuf_congr R.buf R.keeps.resets j).trans (T.buf j) }

/-- Settles O42: the result of an operation, and the phase its stop leaves. -/
theorem operationPlaysItsSteps : Obligations.OperationPlaysItsSteps := by
  intro i s hi
  obtain ⟨t, h⟩ := exec_next i s
  have R := exec_operation_result hi h
  refine ⟨t, _, h, rfl, R.cause ▸ exec_completed h, R.trace, R.script, R.lastStatus, R.idx,
    exec_phase_idle (.inl hi) h, ?_⟩
  rw [R.stopUnconf, moveAnswer_stop]

/-! ### The body of an operation -/

theorem Receives.isOperation {i : Instr} (h : Receives i) : isOperation i = true := by
  rcases h with ⟨a, n, rfl⟩ | ⟨a, r, n, rfl⟩ <;> rfl

theorem Sends.isOperation {i : Instr} (h : Sends i) : isOperation i = true := by
  rcases h with ⟨a, n, rfl⟩ | ⟨a, r, n, rfl⟩ <;> rfl

theorem sends_or_receives {i : Instr} (h : isOperation i = true) : Sends i ∨ Receives i := by
  cases i with
  | bwrite a n => exact .inl (.inl ⟨a, n, rfl⟩)
  | bread a n => exact .inr (.inl ⟨a, n, rfl⟩)
  | wreg a b n => exact .inl (.inr ⟨a, b, n, rfl⟩)
  | rreg a b n => exact .inr (.inr ⟨a, b, n, rfl⟩)
  | _ => cases h

/-- The primitives that come before the data bytes of an operation: none stops, none receives. -/
abbrev OpensTransfer (ps : List Primitive) : Prop := ∀ p ∈ ps, p ≠ .stop ∧ receives p.action = false

theorem bodyMoves_of_sends {i : Instr} (hi : Sends i) (s : State) :
    ∃ ps, OpensTransfer ps ∧ bodyMoves s i = ps.map .prim ++ sendMoves s i.fields.len := by
  rcases hi with ⟨a, n, rfl⟩ | ⟨a, b, n, rfl⟩
  · exact ⟨[.start, .addr a .write], by simp [OpensTransfer, Primitive.action, receives], rfl⟩
  · exact ⟨[.start, .addr a .write, .txdata b], by simp [OpensTransfer, Primitive.action, receives], rfl⟩

theorem bodyMoves_of_receives {i : Instr} (hi : Receives i) (s : State) :
    ∃ ps, OpensTransfer ps ∧ bodyMoves s i = ps.map .prim ++ receiveMoves i.fields.len := by
  rcases hi with ⟨a, n, rfl⟩ | ⟨a, b, n, rfl⟩
  · exact ⟨[.start, .addr a .read], by simp [OpensTransfer, Primitive.action, receives], rfl⟩
  · exact ⟨[.start, .addr a .write, .txdata b, .rstart, .addr a .read],
      by simp [OpensTransfer, Primitive.action, receives], rfl⟩

theorem mem_sendMoves {s : State} {n : Byte} {m : Move} (h : m ∈ sendMoves s n) : ∃ i b, m = .send i b := by
  obtain ⟨k, -, rfl⟩ := List.mem_map.1 h
  exact ⟨_, _, rfl⟩

theorem mem_receiveMoves {n : Byte} {m : Move} (h : m ∈ receiveMoves n) : ∃ i last, m = .receive i last := by
  obtain ⟨k, -, rfl⟩ := List.mem_map.1 h
  exact ⟨_, _, rfl⟩

theorem receives_receive (i : Byte) (last : Bool) : receives (Move.receive i last).primitive.action = true := by
  cases last <;> rfl

/-- In a read the steps that count are the receives. -/
theorem receives_eq_counts {i : Instr} (hi : Receives i) (s : State) {m : Move} (hm : m ∈ bodyMoves s i) :
    receives m.primitive.action = m.counts := by
  obtain ⟨ps, hps, e⟩ := bodyMoves_of_receives hi s
  rw [e, List.mem_append, List.mem_map] at hm
  rcases hm with ⟨p, hp, rfl⟩ | hm
  · exact (hps p hp).2
  · obtain ⟨k, last, rfl⟩ := mem_receiveMoves hm
    exact receives_receive k last

theorem receives_eq_false {i : Instr} (hi : Sends i) (s : State) {m : Move} (hm : m ∈ bodyMoves s i) :
    receives m.primitive.action = false := by
  obtain ⟨ps, hps, e⟩ := bodyMoves_of_sends hi s
  rw [e, List.mem_append, List.mem_map] at hm
  rcases hm with ⟨p, hp, rfl⟩ | hm
  · exact (hps p hp).2
  · obtain ⟨k, b, rfl⟩ := mem_sendMoves hm
    rfl

/-! ### The frames -/

theorem exec_operation_bus {i : Instr} {s t : State} (hi : isOperation i = true) (h : exec i s = .next t) :
    t.bus.divider = s.bus.divider ∧ t.bus.enabled = s.bus.enabled :=
  exec_divider_enabled (by rintro rfl; cases hi) h

/-- An operation does not use DIR, so the latch holds 0 (30_encoding R95). -/
theorem exec_operation_latches {i : Instr} {s t : State} (hi : isOperation i = true) (h : exec i s = .next t) :
    t.op = i.fields.op ∧ t.dir = .write ∧ t.addr7 = i.fields.addr7 ∧ t.byte = i.fields.byte ∧
      t.len = i.fields.len := by
  have hdir : Dir.ofBit i.fields.dir = .write := by
    rcases sends_or_receives hi with (⟨a, n, rfl⟩ | ⟨a, b, n, rfl⟩) | (⟨a, n, rfl⟩ | ⟨a, b, n, rfl⟩) <;> rfl
  rw [← hdir]
  exact exec_latches h

theorem idx_eq_length_received {i : Instr} {s t : State} (hi : Receives i) (h : exec i s = .next t) :
    t.idx.toNat = (play s (bodyMoves s i)).received.length := by
  rw [(exec_operation_result hi.isOperation h).idx, play_length_received s _ fun _ => receives_eq_counts hi s]

/-- Settles O43: IDX counts the bytes received, which BUF and RXDATA hold. -/
theorem readOperationsStoreReceivedBytes : Obligations.ReadOperationsStoreReceivedBytes := by
  intro i s hi
  obtain ⟨t, h⟩ := exec_next i s
  have R := exec_operation_result (Receives.isOperation hi) h
  exact ⟨t, h, idx_eq_length_received hi h, R.buf, R.rxdata⟩

/-- Settles O45: from IDX on there is no byte received. -/
theorem readOperationsFrame : Obligations.ReadOperationsFrame := by
  intro i s hi
  have hop := Receives.isOperation hi
  obtain ⟨t, h⟩ := exec_next i s
  have R := exec_operation_result hop h
  have hlen := idx_eq_length_received hi h
  obtain ⟨hdiv, hen⟩ := exec_operation_bus hop h
  refine ⟨t, h, exec_frame h, hdiv, hen, fun j hj => ?_, exec_idx_le_len h, fun h0 => ?_,
    exec_operation_latches hop h⟩
  · rw [R.buf, List.getElem?_eq_none (hlen ▸ hj), Option.getD_none]
  · rw [h0] at hlen
    rw [R.rxdata, List.eq_nil_of_length_eq_zero hlen.symm, List.getLast?_nil, Option.getD_none]

/-- Settles O44: a write receives nothing, so BUF and RXDATA hold what they held. -/
theorem writeOperationsFrame : Obligations.WriteOperationsFrame := by
  intro i s hi
  have hop := Sends.isOperation hi
  obtain ⟨t, h⟩ := exec_next i s
  have R := exec_operation_result hop h
  have hrec := play_received_of_no_receives s _ fun _ => receives_eq_false hi s
  obtain ⟨hdiv, hen⟩ := exec_operation_bus hop h
  refine ⟨t, h, exec_frame h, ?_, hdiv, hen, fun j => ?_, exec_operation_latches hop h⟩
  · rw [R.rxdata, hrec, List.getLast?_nil, Option.getD_none]
  · rw [R.buf, hrec, List.getElem?_nil, Option.getD_none]

end Sys2Proof.Machine
end

section
/-! PROOFS. The triggers of an operation (43_orchestrator R188): those of the steps executed, in order, then T_STOP; the
receives among them are acknowledged but for the last of the transfer. -/

namespace Sys2Proof.Machine

/-! ### The triggers of a play -/

/-- The action a step triggers. -/
def Move.action (m : Move) : Action := m.primitive.action

theorem triggers_loads_trig (p : Primitive) : triggers (p.loads ++ [.trig p.action]) = [p.action] := by
  cases p <;> rfl

theorem Played.triggers {cfg : Cfg} {p q : Play} {m : Move} (h : Played cfg p m q) :
    ∃ new, q.trace = p.trace ++ new ∧ triggers new = [m.action] := by
  have hbefore : Machine.triggers m.before = [] := by cases m <;> rfl
  have hafter : ∀ r, Machine.triggers (if q.cause = .none then m.after r else []) = [] := fun r => by
    split
    · cases m <;> rfl
    · rfl
  refine ⟨m.before ++ (m.primitive.loads ++ [.trig m.primitive.action]) ++
    primAnswerEvents cfg m.primitive (moveAnswer p m) ++ (if q.cause = .none then m.after (moveAnswer p m) else []),
    by simp [h.trace], ?_⟩
  rw [triggers_append, triggers_append, triggers_append, hbefore, triggers_loads_trig, triggers_primAnswerEvents,
    hafter, List.nil_append, List.append_nil, List.append_nil, Move.action]

theorem play_triggers (s : State) (ms : List Move) : ∃ new, (play s ms).trace = s.trace ++ new ∧
    triggers new = (ms.take (play s ms).executed).map Move.action := by
  refine play_induct (P := fun ms q => ∃ new, q.trace = s.trace ++ new ∧
    triggers new = (ms.take q.executed).map Move.action) ⟨[], by simp, rfl⟩ (fun ms m _ ih => ?_)
    (fun ms m q hc hq ih => ?_) ms
  · rw [List.take_append_of_le_length (play_executed_le s ms)]
    exact ih
  · obtain ⟨x, hx, tx⟩ := ih
    obtain ⟨y, hy, ty⟩ := hq.triggers
    rw [play_executed_of_none hc, List.take_length] at tx
    refine ⟨x ++ y, by rw [hy, hx, List.append_assoc], ?_⟩
    rw [triggers_append, tx, ty, hq.executed, play_executed_of_none hc, List.take_of_length_le (by simp),
      List.map_append, List.map_singleton]

theorem exec_operation_triggers {i : Instr} {s t : State} (hi : isOperation i = true) (h : exec i s = .next t) :
    ∃ new, t.trace = s.trace ++ new ∧
      triggers new = ((bodyMoves s i).take (play s (bodyMoves s i)).executed).map Move.action ++ [.stop] := by
  obtain ⟨x, hx, tx⟩ := play_triggers s (bodyMoves s i)
  refine ⟨_, by rw [(exec_operation_result hi h).trace, playStop_trace, hx, List.append_assoc], ?_⟩
  rw [triggers_append, triggers_append, tx, triggers_primAnswerEvents, List.append_nil]
  rfl

/-! ### The receives of a transfer -/

/-- The receives of a transfer of `n` bytes, so far: some acknowledged ones, or all `n`, the last not acknowledged. -/
def ReceiveTriggers (n : Nat) (as : List Action) : Prop :=
  (∃ r ≤ n - 1, as = List.replicate r .rxAck) ∨ (1 ≤ n ∧ as = List.replicate (n - 1) .rxAck ++ [.rxNack])

section
variable {n : Nat} {as : List Action} (h : ReceiveTriggers n as)
include h

theorem ReceiveTriggers.length_le : as.length ≤ n := by
  rcases h with ⟨r, hr, rfl⟩ | ⟨hn, rfl⟩
  · rw [List.length_replicate]
    omega
  · rw [List.length_append, List.length_replicate, List.length_singleton]
    omega

theorem ReceiveTriggers.count_rxAck : as.count .rxAck = min as.length (n - 1) := by
  rcases h with ⟨r, hr, rfl⟩ | ⟨hn, rfl⟩
  · simp [hr]
  · simp

theorem ReceiveTriggers.count_rxNack_le : as.count .rxNack ≤ 1 := by
  rcases h with ⟨r, hr, rfl⟩ | ⟨hn, rfl⟩ <;> simp [List.count_replicate]

theorem ReceiveTriggers.getLast? (hc : as.count .rxNack = 1) : as.getLast? = some .rxNack := by
  rcases h with ⟨r, hr, rfl⟩ | ⟨hn, rfl⟩
  · simp [List.count_replicate] at hc
  · exact List.getLast?_concat

end

theorem map_action_receiveMoves {n : Byte} (hn : 1 ≤ n.toNat) :
    (receiveMoves n).map Move.action = List.replicate (n.toNat - 1) .rxAck ++ [.rxNack] := by
  obtain ⟨k, hk⟩ := Nat.exists_eq_add_of_le' hn
  have hack : ∀ i ∈ List.range k, (Move.receive (BitVec.ofNat 8 i) (decide (i + 1 = k + 1))).action = .rxAck :=
    fun i hi => by simp [Move.action, Move.primitive, Primitive.action, (List.mem_range.1 hi).ne]
  rw [receiveMoves, hk, List.map_map, List.range_succ, List.map_append, Nat.add_sub_cancel]
  congr 1
  · exact List.eq_replicate_iff.2 ⟨by simp, fun b hb => by
      obtain ⟨i, hi, rfl⟩ := List.mem_map.1 hb
      exact hack i hi⟩
  · simp [Move.action, Move.primitive, Primitive.action]

theorem receiveTriggers_take_receiveMoves (n : Byte) (k : Nat) :
    ReceiveTriggers n.toNat (((receiveMoves n).take k).map Move.action) := by
  rcases Nat.eq_zero_or_pos n.toNat with h0 | hn
  · exact .inl ⟨0, Nat.zero_le _, by simp [receiveMoves, h0]⟩
  · rw [List.map_take, map_action_receiveMoves hn]
    rcases Nat.lt_or_ge (n.toNat - 1) k with hk | hk
    · exact .inr ⟨hn, List.take_of_length_le (by simpa using hk)⟩
    · exact .inl ⟨k, hk, by rw [List.take_append_of_le_length (by simpa using hk), List.take_replicate,
        Nat.min_eq_left hk]⟩

/-! ### The receives of an operation -/

/-- The receives among the steps `ms`. -/
def receiveActions (ms : List Move) : List Action := (ms.map Move.action).filter receives

theorem receiveActions_append (xs ys : List Move) :
    receiveActions (xs ++ ys) = receiveActions xs ++ receiveActions ys := by
  rw [receiveActions, List.map_append, List.filter_append]
  rfl

theorem receiveActions_eq_nil {ms : List Move} (h : ∀ m ∈ ms, receives m.action = false) : receiveActions ms = [] := by
  refine List.filter_eq_nil_iff.2 fun a ha => ?_
  obtain ⟨m, hm, rfl⟩ := List.mem_map.1 ha
  simp [h m hm]

theorem receiveActions_of_receiveMoves {n : Byte} {ms : List Move} (h : ∀ m ∈ ms, m ∈ receiveMoves n) :
    receiveActions ms = ms.map Move.action := by
  refine List.filter_eq_self.2 fun a ha => ?_
  obtain ⟨m, hm, rfl⟩ := List.mem_map.1 ha
  obtain ⟨k, last, rfl⟩ := mem_receiveMoves (h m hm)
  exact receives_receive k last

theorem receiveActions_opening {ps : List Primitive} (hps : OpensTransfer ps) (k : Nat) :
    receiveActions ((ps.map Move.prim).take k) = [] :=
  receiveActions_eq_nil fun m hm => by
    obtain ⟨p, hp, rfl⟩ := List.mem_map.1 (List.mem_of_mem_take hm)
    exact (hps p hp).2

/-- However many steps an operation executes, its receives are those of a transfer of LEN bytes, so far. -/
theorem receiveTriggers_of_operation {i : Instr} (hi : isOperation i = true) (s : State) (k : Nat) :
    ReceiveTriggers i.fields.len.toNat (receiveActions ((bodyMoves s i).take k)) := by
  rcases sends_or_receives hi with hs | hr
  · exact .inl ⟨0, Nat.zero_le _, receiveActions_eq_nil fun m hm => receives_eq_false hs s (List.mem_of_mem_take hm)⟩
  · obtain ⟨ps, hps, e⟩ := bodyMoves_of_receives hr s
    rw [e, List.take_append, receiveActions_append, receiveActions_opening hps, List.nil_append,
      receiveActions_of_receiveMoves fun m => List.mem_of_mem_take]
    exact receiveTriggers_take_receiveMoves _ _

theorem receiveActions_bodyMoves {i : Instr} (hi : Receives i) (s : State) (hn : 1 ≤ i.fields.len.toNat) :
    receiveActions (bodyMoves s i) = List.replicate (i.fields.len.toNat - 1) .rxAck ++ [.rxNack] := by
  obtain ⟨ps, hps, e⟩ := bodyMoves_of_receives hi s
  have hopen := receiveActions_opening hps ps.length
  rw [List.take_of_length_le (by simp)] at hopen
  rw [e, receiveActions_append, hopen, List.nil_append, receiveActions_of_receiveMoves fun m => id,
    map_action_receiveMoves hn]

/-! ### Stops and data bytes of a body -/

theorem action_ne_stop {p : Primitive} (h : p ≠ .stop) : p.action ≠ .stop := by
  cases p with
  | stop => exact absurd rfl h
  | _ => simp [Primitive.action]

/-- The steps of an operation are those that open the transfer, then LEN data steps. -/
theorem bodyMoves_of_operation {i : Instr} (hi : isOperation i = true) (s : State) :
    ∃ ps data, OpensTransfer ps ∧ bodyMoves s i = ps.map .prim ++ data ∧ data.length = i.fields.len.toNat ∧
      ∀ m ∈ data, m.counts = true ∧ m.primitive ≠ .stop := by
  rcases sends_or_receives hi with hs | hr
  · obtain ⟨ps, hps, e⟩ := bodyMoves_of_sends hs s
    refine ⟨ps, _, hps, e, length_sendMoves _ _, fun m hm => ?_⟩
    obtain ⟨k, b, rfl⟩ := mem_sendMoves hm
    simp [Move.counts, Move.primitive]
  · obtain ⟨ps, hps, e⟩ := bodyMoves_of_receives hr s
    refine ⟨ps, _, hps, e, length_receiveMoves _, fun m hm => ?_⟩
    obtain ⟨k, last, rfl⟩ := mem_receiveMoves hm
    cases last <;> simp [Move.counts, Move.primitive]

theorem action_ne_stop_of_mem_bodyMoves {i : Instr} (hi : isOperation i = true) {s : State} {m : Move}
    (hm : m ∈ bodyMoves s i) : m.action ≠ .stop := by
  obtain ⟨ps, data, hps, e, -, hdata⟩ := bodyMoves_of_operation hi s
  rw [e, List.mem_append, List.mem_map] at hm
  rcases hm with ⟨p, hp, rfl⟩ | hm
  · exact action_ne_stop (hps p hp).1
  · exact action_ne_stop (hdata m hm).2

theorem countP_counts_bodyMoves {i : Instr} (hi : isOperation i = true) (s : State) :
    (bodyMoves s i).countP Move.counts = i.fields.len.toNat := by
  obtain ⟨ps, data, -, e, hlen, hdata⟩ := bodyMoves_of_operation hi s
  have hopening : (ps.map Move.prim).countP Move.counts = 0 := by simp [List.countP_eq_zero, Move.counts]
  rw [e, List.countP_append, hopening, Nat.zero_add, List.countP_eq_length.2 fun m hm => (hdata m hm).1, hlen]

/-! ### The counts -/

theorem filter_receives_append_stop (ms : List Move) :
    (ms.map Move.action ++ [Action.stop]).filter receives = receiveActions ms := by
  rw [List.filter_append, ← receiveActions]
  exact List.append_nil _

theorem count_stop_append_stop {ms : List Move} (h : ∀ m ∈ ms, m.action ≠ .stop) :
    (ms.map Move.action ++ [Action.stop]).count Action.stop = 1 := by
  have hnot : Action.stop ∉ ms.map Move.action := fun hs => by
    obtain ⟨m, hm, e⟩ := List.mem_map.1 hs
    exact h m hm e
  rw [List.count_append, List.count_eq_zero.2 hnot]
  rfl

/-- Settles O46: the triggers are those of the steps executed and T_STOP; the receives among them are those of a
transfer of LEN bytes, so far. -/
theorem triggerCounts : Obligations.TriggerCounts := by
  intro i s hi
  obtain ⟨t, h⟩ := exec_next i s
  obtain ⟨new, hnew, htrig⟩ := exec_operation_triggers hi h
  have R := exec_operation_result hi h
  have hrec := filter_receives_append_stop ((bodyMoves s i).take (play s (bodyMoves s i)).executed)
  have hlen : (triggers new).length = (play s (bodyMoves s i)).executed + 1 := by
    simp [htrig, play_executed_le]
  have hcount : ∀ a, receives a = true → (triggers new).count a = ((triggers new).filter receives).count a :=
    fun a ha => (List.count_filter ha).symm
  rw [← htrig] at hrec
  have T := receiveTriggers_of_operation hi s (play s (bodyMoves s i)).executed
  rw [← hrec] at T
  refine ⟨t, new, _, h, hnew, rfl, hlen, ?_, ?_, ?_, ?_, T.length_le, ?_, ?_, ?_, ?_, ?_⟩
  · rw [htrig, List.getLast?_concat]
  · rw [htrig]
    exact count_stop_append_stop fun m hm => action_ne_stop_of_mem_bodyMoves hi (List.mem_of_mem_take hm)
  · rw [hcount _ rfl]
    exact T.count_rxNack_le
  · rw [hcount _ rfl]
    exact T.getLast?
  · rw [hcount _ rfl]
    exact T.count_rxAck
  · rw [(exec_completed h).outcome, R.cause]
  · intro hc
    refine ⟨play_executed_of_none hc, BitVec.eq_of_toNat_eq ?_⟩
    rw [R.idx, play_counted_of_none hc, countP_counts_bodyMoves hi]
  · intro hr hc hn
    rw [play_executed_of_none hc, List.take_length, receiveActions_bodyMoves hr s hn] at hrec
    rw [hcount _ rfl, hcount _ rfl, hrec]
    simp [List.count_replicate]
  · intro j hj hnone hfail
    have hex := play_executed_of_first_failure hj hnone hfail
    exact ⟨hex, by rw [hlen, hex], congrArg Play.cause (play_eq_of_take_failed hfail)⟩

end Sys2Proof.Machine
end

section
/-! PROOFS. An operation and its steps issued as primitive commands (43_orchestrator R191): with an answer scripted for
each trigger, the commands are where the play of the steps is, but for BUF. -/

namespace Sys2Proof.Machine

/-! ### The events without the BUF accesses -/

theorem busEvents_append (x y : List Event) : busEvents (x ++ y) = busEvents x ++ busEvents y :=
  List.filter_append x y

theorem busEvents_before (m : Move) : busEvents m.before = [] := by cases m <;> rfl

theorem busEvents_after (m : Move) (r : Response) : busEvents (m.after r) = [] := by cases m <;> rfl

/-! ### One command -/

/-- The commands issued from `s` on have brought the machine to `u`, where the play `p` is, but for BUF. -/
structure Follows (s : State) (p : Play) (u : State) : Prop where
  cfg : u.cfg = s.cfg
  script : u.script = p.script
  events : busEvents u.trace = busEvents p.trace
  lastStatus : u.lastStatus = p.lastStatus
  rxdata : u.rxdata = (p.received.getLast?).getD s.rxdata
  buf : u.buf = s.buf

theorem Follows.refl (s : State) : Follows s (play s []) s := ⟨rfl, rfl, rfl, rfl, rfl, rfl⟩

/-- A scripted answer is the same for the step and for its command, whatever events came before. -/
theorem Follows.answer {s u : State} {p : Play} (F : Follows s p u) (hs : p.script ≠ []) (m : Move) :
    answer u m.primitive = moveAnswer p m := by
  obtain ⟨r, rest, h⟩ := List.exists_cons_of_ne_nil hs
  rw [Machine.answer, answerTo, moveAnswer, F.script, h]
  rfl

theorem Follows.step {s u v : State} {p q : Play} {m : Move} (F : Follows s p u) (hs : p.script ≠ [])
    (hq : Played s.cfg p m q) (h : exec m.primitive.command u = .next v) : Follows s q v := by
  have R := command_result h
  have hans := F.answer hs m
  have hcause : v.cause = q.cause := by rw [R.cause, hq.cause, hans, F.cfg]
  have hafter : busEvents (if q.cause = .none then m.after (moveAnswer p m) else []) = [] := by
    split
    · exact busEvents_after m _
    · rfl
  refine ⟨(exec_frame h).cfg.trans F.cfg, ?_, ?_, ?_, ?_, R.buf.trans F.buf⟩
  · rw [R.script, hq.script, F.script]
  · rw [R.trace, hq.trace, primEvents, hans, F.cfg]
    simp only [busEvents_append, F.events, busEvents_before, hafter, List.nil_append, List.append_nil,
      List.append_assoc]
  · rw [R.lastStatus, hq.lastStatus, inTime, hans, F.cfg, F.lastStatus]
  · rw [R.rxdata, hq.received, hcause, hans, F.rxdata]
    by_cases hr : receives m.primitive.action = true ∧ q.cause = .none
    · rw [if_pos hr, if_pos hr.symm, List.getLast?_concat, Option.getD_some]
    · rw [if_neg hr, if_neg fun hh => hr hh.symm]

/-! ### The commands of the steps executed -/

theorem runCommands_concat {is : List Instr} {i : Instr} {s u v : State} (h : runCommands is s = some u)
    (hi : exec i u = .next v) : runCommands (is ++ [i]) s = some v := by
  induction is generalizing s with
  | nil =>
    cases h
    simp [runCommands, hi]
  | cons j js ih =>
    obtain ⟨t, ht⟩ := exec_next j s
    rw [List.cons_append, runCommands, ht]
    rw [runCommands, ht] at h
    exact ih h

/-- The commands that issue the first `k` of the steps `ms` on their own. -/
def stepCommands (ms : List Move) (k : Nat) : List Instr := (ms.take k).map fun m => m.primitive.command

theorem stepCommands_append_of_le {ms : List Move} {k : Nat} (h : k ≤ ms.length) (m : Move) :
    stepCommands (ms ++ [m]) k = stepCommands ms k := by
  rw [stepCommands, List.take_append_of_le_length h, stepCommands]

theorem stepCommands_append_length (ms : List Move) (m : Move) :
    stepCommands (ms ++ [m]) (ms.length + 1) = stepCommands ms ms.length ++ [m.primitive.command] := by
  simp [stepCommands]

theorem play_script_ne_nil {s : State} {ms : List Move} (h : ms.length < s.script.length) :
    (play s ms).script ≠ [] := by
  rw [play_script, ne_eq, List.drop_eq_nil_iff, not_le]
  exact (play_executed_le s ms).trans_lt h

theorem runCommands_follows {s : State} {ms : List Move} (h : ms.length ≤ s.script.length) :
    ∃ u, runCommands (stepCommands ms (play s ms).executed) s = some u ∧ Follows s (play s ms) u := by
  revert h
  refine play_induct (P := fun ms q => ms.length ≤ s.script.length →
    ∃ u, runCommands (stepCommands ms q.executed) s = some u ∧ Follows s q u) (fun _ => ⟨s, rfl, Follows.refl s⟩)
    (fun ms m _ ih h => ?_) (fun ms m q hc hq ih h => ?_) ms
  · rw [stepCommands_append_of_le (play_executed_le s ms)]
    exact ih ((ms.sublist_append_left [m]).length_le.trans h)
  · rw [List.length_append, List.length_singleton] at h
    obtain ⟨u, hu, F⟩ := ih (Nat.le_of_succ_le h)
    obtain ⟨v, hv⟩ := exec_next m.primitive.command u
    rw [play_executed_of_none hc] at hu
    rw [hq.executed, play_executed_of_none hc, stepCommands_append_length]
    exact ⟨v, runCommands_concat hu hv, F.step (play_script_ne_nil h) hq hv⟩

/-- Settles O47: the commands follow the play of the steps executed, and STOP follows the stop of the operation. -/
theorem operationEqualsItsPrimitiveCommands : Obligations.OperationEqualsItsPrimitiveCommands := by
  intro i s hi hlen
  obtain ⟨t, h⟩ := exec_next i s
  have R := exec_operation_result hi h
  obtain ⟨u, hu, F⟩ := runCommands_follows (Nat.le_of_succ_le hlen)
  obtain ⟨v, hv⟩ := exec_next .stop u
  have S : CommandResult .stop u v := command_result hv
  have hs := play_script_ne_nil (s := s) hlen
  have hans : answer u .stop = _ := F.answer hs (.prim .stop)
  have F' : Follows s { play s (bodyMoves s i) with cause := .none } u := { F with }
  have G := F'.step hs (playMove_played rfl (.prim .stop)) hv
  refine ⟨t, v, h, runCommands_concat hu hv, ?_, ?_, ?_, ?_, ?_, ?_, S.idx, S.buf.trans F.buf, S.cause⟩
  · exact (congrArg busEvents R.trace).trans G.events.symm
  · rw [exec_phase_idle (.inl hi) h, exec_phase_idle (.inr rfl) hv]
  · rw [R.stopUnconf, S.stopUnconf, if_pos rfl, inTime, hans, F.cfg]
  · rw [R.lastStatus, S.lastStatus, if_neg (by simp), F.lastStatus]
  · rw [R.rxdata, S.rxdata_of_no_receive rfl, F.rxdata]
  · exact R.script.trans G.script.symm

end Sys2Proof.Machine
end

section
/-! PROOFS. The reset input (70_reset R240 to R242), and the configuration, which no step changes (R250, R254). -/

namespace Sys2Proof.Machine

/-! ### The reset input -/

theorem busyStep_of_reset {s : State} {rest : List HostMove} (h : s.host = .reset :: rest) :
    busyStep s = coreReset { s with host := rest } := by
  simp [busyStep, h]

theorem step_of_busy {s : State} (hb : s.busy = true) : step s = .next (busyStep s) := by
  rw [step, if_pos hb]

/-- Idle or busy, the reset input does the same (70_reset R242). -/
theorem step_of_reset {s : State} {rest : List HostMove} (h : s.host = .reset :: rest)
    (hfree : s.busy = true ∨ s.cmdValid = false) : step s = .next (coreReset { s with host := rest }) := by
  by_cases hb : s.busy = true
  · rw [step_of_busy hb, busyStep_of_reset h]
  · rw [step_of_idle (Bool.eq_false_of_not_eq_true hb) (hfree.resolve_left hb), idleStep_of_cons h, hostMove]

/-- Settles O14: the step is the reset of the core, which takes its registers from the reset state (`resetValues`) and
the rest from the state it is in. -/
theorem resetInput : Obligations.ResetInput := by
  intro s rest h hfree
  obtain ⟨hbusy, hdone, hphase, hseq, hidx, houtcome, hcause, hstop, hillegal⟩ := resetValues
  exact ⟨_, step_of_reset h hfree, hbusy, hdone, hphase, hseq, hidx, houtcome, hcause, hstop, hillegal,
    coreReset_bus _, rfl, rfl, rfl, rfl⟩

/-! ### The configuration -/

@[simp] theorem coreReset_cfg (s : State) : (coreReset s).cfg = s.cfg := rfl

@[simp] theorem hostMove_cfg (m : HostMove) (s : State) : (hostMove m s).cfg = s.cfg := by
  cases m <;> rfl

@[simp] theorem idleStep_cfg (s : State) : (idleStep s).cfg = s.cfg := by
  rcases idleStep_cases s with h | ⟨m, rest, -, h⟩ <;> rw [h]
  exact hostMove_cfg m _

@[simp] theorem busyStep_cfg (s : State) : (busyStep s).cfg = s.cfg := by
  by_cases h : ∃ rest, s.host = .reset :: rest
  · obtain ⟨rest, hr⟩ := h
    rw [busyStep_of_reset hr, coreReset_cfg]
  · rw [busyStep_of_no_reset (not_exists.1 h)]

@[simp] theorem runIllegal_cfg (w : Word) (s : State) : (runIllegal w s).cfg = s.cfg := by
  rw [runIllegal, completeIllegal_cfg, accept_cfg]

/-- Settles O17: each kind of step keeps the configuration, a command by its frame. -/
theorem stepKeepsConfiguration : Obligations.StepKeepsConfiguration := by
  intro s t h
  rcases step_cases h with ⟨-, rfl⟩ | ⟨-, -, i, -, hx⟩ | ⟨-, -, -, rfl⟩ | ⟨-, -, rfl⟩
  · exact busyStep_cfg s
  · rw [(exec_frame hx).cfg, takeCommand_cfg]
  · rw [runIllegal_cfg, takeCommand_cfg]
  · exact idleStep_cfg s

end Sys2Proof.Machine
end
